-- ==== Sys2Proof/Word.lean ====
section
/-! DEFINITION. The words of the VF216: a byte, and the fixed widths at which the manual treats a quantity as bits
(configuration words, check values, window words). Quantities the manual counts (blocks, days, epochs, handles) are `Nat`. -/

namespace Sys2Proof

/-- One byte, as host software, peers and the receiver see it (R196). -/
abbrev Byte := BitVec 8

/-- A 16-bit word of the configuration image (R184). -/
abbrev Word16 := BitVec 16

/-- A 32-bit word: a check value (R152), a frame check (R201), STATION-STATE (R197). -/
abbrev Word32 := BitVec 32

end Sys2Proof
end

