-- ==== Sys2Proof/Syntax.lean ====
section
/-! DEFINITION. The steps of the VF216: one constructor of `Instr` per row of spec/opcode_table.json, with what the
outside gives that step (a written value, bytes read by DMA, a received frame, the strap pins, whether table memory answers
with an uncorrectable error) and, for the step that takes a host command, the fields of that command. -/

namespace Sys2Proof

/-- The two command rings (R169). -/
inductive Ring | u | b
deriving DecidableEq, Repr

/-- The modes of START, in the order of their named values (R196). -/
inductive StartMode | fresh | resume | auto
deriving DecidableEq, Repr

/-- When a SET-LIMITS takes effect (R10, R196). -/
inductive LimitsWhen | now | rollover
deriving DecidableEq, Repr

/-- Restore policies of a class (R3, R196). -/
inductive Policy | asStation | refuse | partly | allow
deriving DecidableEq, Repr

/-- States of an extent record (R30, R196). -/
inductive ExtentState | reserved | live | held
deriving DecidableEq, Repr

/-- Copy states of an extent record (R30, R196). -/
inductive CopyState | awaiting | copied | exempt
deriving DecidableEq, Repr

/-- Call kinds of a SNAPCALL (R92, R196). -/
inductive CallKind | admin | night
deriving DecidableEq, Repr

/-- What the table-memory controller answers to a step's accesses: no error, an error it corrected, or one it could not
correct (R28, R195). -/
inductive Ecc | clean | corrected | uncorrectable
deriving DecidableEq, Repr

/-- The end of a DMA read of one 32-bit ring index: the word read, or a failure the PCIe endpoint reports (R180). -/
inductive IndexRead | value (v : Nat) | failed
deriving DecidableEq, Repr

/-- The end of the DMA of one fetch: the 64-byte command entry read, or a failure, of this read or of the write of the ring's
consumer index after it, which leaves the entry unfetched (R171, R180). -/
inductive EntryRead | bytes (entry : List Byte) | failed
deriving DecidableEq, Repr

/-- The end of a DMA write to the queue block (R178, R180). -/
inductive DmaWrite | done | failed
deriving DecidableEq, Repr

/-- The end of one EEPROM read: 64 bytes, no acknowledgement after the address was acknowledged, or no acknowledgement of
the address (R184). -/
inductive EepromRead | image (data : List Byte) | stopped | noDevice
deriving DecidableEq, Repr

/-- A host command with its fields, as the command table of section 9.5 lists them. A field that holds a named value is
`none` where its byte names none of the values (R196); a limit, death epoch, grace expiry or owner that may be absent is
`none` where it is. -/
inductive HostCommand
  | charge (handle owner volume length : Nat)
  | release (handle : Nat)
  | start (mode : Option StartMode) (incarnation day second : Nat)
  | rebuildDone
  | loadOwner (owner cls : Nat) (soft hard grace : Option Nat)
  | loadSnapshot (epoch day second retention group : Nat)
  | loadExtent (handle owner volume length : Nat) (state : Option ExtentState) (birth : Nat) (death : Option Nat)
      (copy : Option CopyState)
  | setClock (day second : Nat)
  | setLimits (owner : Nat) (soft hard : Option Nat) (effect : Option LimitsWhen)
  | setOwnerClass (owner cls : Nat)
  | setClass (cls graceDays weight : Nat) (policy : Option Policy)
  | callSnapshot (retention group : Nat)
  | expireSnapshot (epoch : Nat)
  | protectGroup (group : Nat)
  | unprotectGroup (group : Nat)
  | restoreOpen (epoch owner : Nat) (override : Option Bool) (tag : Nat)
  | restoreItem (context tag source handle volume : Nat)
  | restoreCommit (context tag : Nat)
  | restoreAbort (context tag : Nat)
  | staged (slot handle : Nat)
  | stageFailed (slot handle : Nat)
  | inspectOwner (owner : Nat)
  | inspectSnapshots (epoch : Nat)
  | inspectPeers (station : Nat) (owner : Option Nat)
  | inspectNight
deriving DecidableEq, Repr

/-- What the three rows of a beacon tick say of it: which of the egress share and the silence counts it takes first, either
order being allowed (R164), and how table memory answers. -/
structure BeaconTick where
  shareFirst : Bool
  ecc : Ecc
deriving DecidableEq, Repr

/-- The steps of the part, one constructor per row of the operation table, in the table's order. The operand `ecc` says how
table memory answers the step's accesses. The operand `items` of a restore's end says how many of its items the step takes
before events of other units may fall (R85). The two rows of a posting read table memory only where they start a sweep again (R44);
their answer, where it is not given, is clean. -/
inductive Instr
  | powerOn (straps : Nat)
  | resetN (straps : Nat)
  | stationReset (value : Nat) (straps : Nat)
  | configurationRead (read : EepromRead)
  | queueBase (value : Nat) (dma : DmaWrite)
  | notifyU (value : Nat)
  | notifyB (value : Nat)
  | attentionRelease (value : Nat)
  | unmappedWrite (offset value : Nat)
  | stagingWindowWrite (offset : Nat) (data : List Byte)
  | producerIndexRead (ring : Ring) (read : IndexRead)
  | commandFetch (read : EntryRead)
  | responseWrite (consumer : IndexRead) (dma : DmaWrite)
  | responseRoomPoll (consumer : IndexRead) (dma : DmaWrite)
  | attentionPost (dma : DmaWrite)
  | charge (handle owner volume length : Nat) (ecc : Ecc)
  | chargeAdmission (position : Nat) (ecc : Ecc)
  | dirtyReport (ecc : Ecc)
  | release (handle : Nat) (ecc : Ecc)
  | sweepVisit (ecc : Ecc)
  | reclaimBatchTimeout (ecc : Ecc := .clean)
  | reclaimBatchPost (ecc : Ecc := .clean)
  | start (mode : Option StartMode) (incarnation day second : Nat) (ecc : Ecc)
  | tableEmptyingEnd (ecc : Ecc)
  | cleanupWalkStep (ecc : Ecc)
  | cleanupWalkEnd (ecc : Ecc)
  | rebuildDone (ecc : Ecc)
  | checkWalkVisit (ecc : Ecc)
  | checkWalkEnd (ecc : Ecc)
  | loadOwner (owner cls : Nat) (soft hard grace : Option Nat) (ecc : Ecc)
  | loadSnapshot (epoch day second retention group : Nat) (ecc : Ecc)
  | loadExtent (handle owner volume length : Nat) (state : Option ExtentState) (birth : Nat) (death : Option Nat)
      (copy : Option CopyState) (ecc : Ecc)
  | setClock (day second : Nat) (ecc : Ecc)
  | setLimits (owner : Nat) (soft hard : Option Nat) (effect : Option LimitsWhen) (ecc : Ecc)
  | setOwnerClass (owner cls : Nat) (ecc : Ecc)
  | setClass (cls graceDays weight : Nat) (policy : Option Policy)
  | callSnapshot (retention group : Nat) (ecc : Ecc)
  | expireSnapshot (epoch : Nat) (ecc : Ecc)
  | protectGroup (group : Nat) (ecc : Ecc)
  | unprotectGroup (group : Nat) (ecc : Ecc)
  | restoreOpen (epoch owner : Nat) (override : Option Bool) (tag : Nat) (ecc : Ecc)
  | restoreItem (context tag source handle volume : Nat) (ecc : Ecc)
  | restoreItemAdmission (ecc : Ecc)
  | restoreCommit (context tag : Nat) (items : Nat) (ecc : Ecc)
  | restoreAbort (context tag : Nat) (items : Nat) (ecc : Ecc)
  | idleExpiry (context : Nat) (items : Nat) (ecc : Ecc)
  | staged (slot handle : Nat) (ecc : Ecc)
  | stageFailed (slot handle : Nat) (ecc : Ecc)
  | inspectOwner (owner : Nat) (ecc : Ecc)
  | inspectSnapshots (epoch : Nat) (ecc : Ecc)
  | inspectPeers (station : Nat) (owner : Option Nat) (ecc : Ecc)
  | inspectNight (ecc : Ecc)
  | expiryPass (ecc : Ecc)
  | clockRollover
  | beaconTick (tick : BeaconTick)
  | peerSilence (peer : Nat) (tick : BeaconTick)
  | enterActive (tick : BeaconTick)
  | peerForget (peer : Nat)
  | attemptStart
  | collision
  | backoffEnd
  | sendSuccess
  | fragment
  | bulletinArrival (data : List Byte)
  | bulletinFilter (ecc : Ecc)
  | usageApply (ecc : Ecc)
  | purgeVisit (ecc : Ecc)
  | walkerExpiry (ecc : Ecc)
  | windowStart (ecc : Ecc)
  | windowEnd (ecc : Ecc)
  | nightReport (ecc : Ecc)
  | copyCompletion (ecc : Ecc)
  | takeForStaging (ecc : Ecc)
  | stagingTimeout (slot : Nat) (ecc : Ecc)
  | helloSend
  | idleSend
  | copySend (ecc : Ecc)
  | copySendEnd
  | readyFrame (ecc : Ecc)
  | idleFrame
  | ack (handle attempt : Nat) (check : Word32) (ecc : Ecc)
  | nak (handle attempt reason : Nat) (ecc : Ecc)
  | badFrame (data : List Byte)
  | replyTimeout (slot : Nat) (ecc : Ecc)
  | busyWaitEnd (slot : Nat)
  | lossOfSignal (ecc : Ecc)
  | linkSilenceTimeout (ecc : Ecc)
  | tokenGain
  | resetNLow
  | mediumBusy
deriving DecidableEq, Repr

end Sys2Proof
end

