-- ==== Sys2Proof/Decode.lean ====
section
/-! DEFINITION. Reading a step from a word. No row of the operation table gives bits, so no word spells a step (assumption
15). -/

namespace Sys2Proof

/-- The step a word spells by the operation table's bits: none, since the table gives none. -/
def decodeTableWord (_nbits _w : Nat) : Option Instr := none

end Sys2Proof
end

