-- ==== Sys2Proof/Config.lean ====
section
/-! DEFINITION. What the part fixes: capacities, ceilings and periods, each from the rule that states it; and the model's
two free values, the output of the on-chip generator and the incarnation of a USAGE whose sender is forgotten. All running time is counted in cycles of the 25 MHz reference. -/

namespace Sys2Proof.Config

/-- Largest value a standing takes (R15). -/
def standingCeiling : Nat := 4294967295
/-- Largest present limit (R9). -/
def limitCeiling : Nat := 4294967294
/-- Largest 32-bit count: handles, epochs, the three segment counts, the night number (R30, R54, R98, R134). -/
def countCeiling : Nat := 4294967295
/-- Owners of the Owner Table (R1). -/
def ownerCount : Nat := 65536
/-- Places of the Extent Table (R29). -/
def extentCapacity : Nat := 4194304
/-- Entries of the contribution pool (R115). -/
def poolCapacity : Nat := 524288
/-- Records of the Catalogue (R52). -/
def catalogueCapacity : Nat := 64
/-- Items of one restore context (R75). -/
def itemLimit : Nat := 512
/-- Handles of one reclaim batch (R46). -/
def batchLimit : Nat := 16
/-- Owners of the Dirty List (R121). -/
def dirtyCapacity : Nat := 4096
/-- Notices of the Outbound Notice Queue (R176). -/
def noticeCapacity : Nat := 32
/-- Bulletins of the receive FIFO (R101). -/
def fifoCapacity : Nat := 8
/-- Places of the outstanding-frame table (R157). -/
def placeCapacity : Nat := 4
/-- Stations of the segment (R106). -/
def stationCount : Nat := 16
/-- Entries of a command ring (R169). -/
def commandRingSize : Nat := 256
/-- Entries of the Response Ring (R169). -/
def responseRingSize : Nat := 512
/-- Commands Ring U keeps in progress (R171). -/
def ringUDepth : Nat := 4
/-- Commands Ring B keeps in progress (R171). -/
def ringBDepth : Nat := 1
/-- Bytes of one staging slot's data area (R147). -/
def slotBytes : Nat := 1048576
/-- Bytes of the staging window (R147). -/
def stagingBytes : Nat := 8388608
/-- Reads after which the load takes the built-in defaults (R185). -/
def maxConfigReads : Nat := 16
/-- Beacon ticks from entry to LISTENING to ACTIVE (R192). -/
def ticksToActive : Nat := 3
/-- Counted failures that send an entry on the failure path (R161). -/
def maxFailures : Nat := 3
/-- Collisions after which a BEACON or USAGE is dropped (R98). -/
def maxAttempts : Nat := 8

/-- Reference cycles in one second, of the 25 MHz reference (R193). -/
def second : Nat := 25000000
/-- Reference cycles in one millisecond (R165). -/
def millisecond : Nat := 25000
/-- Reference cycles in the inter-bulletin gap of 96 bit times, 9.6 µs (R95). -/
def interBulletinGap : Nat := 240
/-- Reference cycles in one slot time of 512 bit times, 51.2 µs (R97). -/
def slotTime : Nat := 1280
/-- Reference cycles between two reads of a full Response Ring's consumer index, 100 µs (R174). -/
def roomPoll : Nat := 2500
/-- Reference cycles of the staging deadline, 120 s (R148). -/
def stagingLimit : Nat := 120 * second
/-- Reference cycles of the reply timer's limit, 2 s (R161). -/
def replyLimit : Nat := 2 * second
/-- Reference cycles of the link's silence limit, 10 s (R155). -/
def linkSilenceLimit : Nat := 10 * second
/-- Seconds in a day (R193). -/
def daySeconds : Nat := 86400
/-- The last day number of the Station Clock (R193). -/
def lastDay : Nat := 65535

/-- FREE VALUE. The `index`-th output of the on-chip generator after a START that seeded it from the station number and
the own incarnation (R97, R112, R125). The manual states what a draw is used for and its range, and not the series. -/
opaque generatorDraw : (station incarnation index : Nat) → Nat

/-- FREE VALUE. The incarnation recorded with a USAGE that is applied when its sender's entry has been forgotten, so that the
Station Table stores none (R116). R105 and R116 name only the stored one; it is taken modulo 65536 (assumption 44). -/
opaque forgottenIncarnation : (peer owner value : Nat) → Nat

end Sys2Proof.Config
end

