-- ==== Sys2Proof/Machine/State.lean ====
section
/-! DEFINITION. The state of the VF216, unit by unit, as plain data; the reasons a step can stop; and the state after
power-on. Every record, list, counter, flag and timer carries the rule that gives it. Fields marked MODEL are the model's
own bookkeeping and are named in the assumption log. -/

namespace Sys2Proof.Machine

/-- Why a step can stop. A table fault or a ring fault of the part is no stop: it is a next state, HALTED (R195). -/
inductive Fault
  /-- Raised by STAGING_WINDOW_WRITE for a byte past the last offset of the 8 MiB staging window, an address that does not
  exist in it (R147, R197). Safe: the machine stops. -/
  | outsideStagingWindow
deriving DecidableEq, Repr

/-- Why a command is turned away by the model itself. -/
inductive Refusal
  /-- Raised by `exec` for a row that has no meaning yet, naming it. Safe: the machine stops. -/
  | notModelled (mnemonic : String)
deriving DecidableEq, Repr

/-! ### Tables -/

/-- A table keyed by number: its entries with keys strictly rising. -/
abbrev Table (α : Type) := List (Nat × α)

/-- Addressed memory: (address, byte) pairs with addresses strictly rising and no byte 0, which an unlisted address reads
as (assumption 3). -/
abbrev Mem := List Host.Cell

/-! ### Station Control -/

/-- The station states, in the order of their named values (R187, R196). -/
inductive StationState | loading | stopped | rebuild | listening | active | mute | halted
deriving DecidableEq, Repr

/-- Halt reasons (R195, R196). -/
inductive HaltReason | ring | table
deriving DecidableEq, Repr

/-- Reset causes (R182). -/
inductive ResetCause | powerOn | pin | station
deriving DecidableEq, Repr

/-- The Station Clock (R193). `phase` counts reference cycles within the second. -/
structure Clock where
  day : Nat
  second : Nat
  phase : Nat
deriving DecidableEq, Repr

/-- The fields of the configuration image after clamping (R186). -/
structure ConfigImage where
  beaconInterval : Nat
  walkerInterval : Nat
  silenceLimit : Nat
  forgetLimit : Nat
  egressCap : Nat
  linkMaximum : Nat
  nightStart : Nat
  nightLength : Nat
  callGuard : Nat
  expiryMinute : Nat
  peerRetention : Nat
  nightRetention : Nat
  peerGroup : Nat
  nightGroup : Nat
  idleTimeout : Nat
  /-- Station default restore policy: true for PARTIAL, false for REFUSE. -/
  defaultPartial : Bool
  selectorKey : Nat
  selectorMask : Nat
  targetMap : List Nat
  keepTables : Bool
deriving DecidableEq, Repr

/-- The built-in defaults (R186). -/
def ConfigImage.defaults : ConfigImage where
  beaconInterval := 2
  walkerInterval := 20
  silenceLimit := 5
  forgetLimit := 1440
  egressCap := 12800
  linkMaximum := 30000
  nightStart := 60
  nightLength := 300
  callGuard := 10
  expiryMinute := 480
  peerRetention := 7
  nightRetention := 30
  peerGroup := 0
  nightGroup := 0
  idleTimeout := 600
  defaultPartial := false
  selectorKey := 0
  selectorMask := 0
  targetMap := List.replicate 16 0
  keepTables := true

/-- Work a START or REBUILD-DONE has begun and not ended. -/
inductive StartWork
  /-- Nothing under way. -/
  | idle
  /-- A FRESH start is emptying the tables (R189). -/
  | emptying
  /-- The cleanup walk of a RESUME, at the next owner and the next peer it has to deal with (R191). -/
  | cleaning (owner peer : Nat)
  /-- The check walk of REBUILD-DONE: the Held List entries still to visit, and the entries deleted and marked so far
  (R48, R190). -/
  | checking (left : List Nat) (deleted marked : Nat)
deriving DecidableEq, Repr

/-- Station Control (chapter 10). -/
structure Stc where
  state : StationState
  /-- Latched from the straps at the end of a reset (R182). -/
  stationNumber : Nat
  resetCause : ResetCause
  /-- RESET_N is held low (R183). -/
  resetHeld : Bool
  /-- The configuration image, absent until the load has ended (R183, R185). -/
  config : Option ConfigImage
  configDefaulted : Bool
  /-- EEPROM reads of this load that ended in mismatch (R185). -/
  reads : Nat
  /-- The Table Integrity Marker: true for VALID (R194). -/
  marker : Bool
  haltReason : Option HaltReason
  clock : Clock
  /-- MODEL: the running clock has reached the expiry minute and the pass is not yet taken (R63). -/
  expiryMoment : Bool
  /-- MODEL: the running clock has reached the night start and the window start is not yet taken (R134). -/
  windowMoment : Bool
  work : StartWork
deriving DecidableEq, Repr

/-! ### Command Queue Port -/

/-- Outcome codes, in the order of their numbers from 1 (R198). -/
inductive OutcomeCode
  | done | granted | grantedWarn | deniedHard | deniedGrace | held | freed | admittedOver | refusedLimit | limited
  | noExtent | notLive | alreadyReleased | duplicate | tableFull | badField | illegal | notNow | catalogueFull | noSnapshot
  | callPending | epochExhausted | contextFull | noContext | itemLimit | notVisible | stale | noTables
deriving DecidableEq, Repr

/-- One item of a completion or notice: a field of a width in bytes; fields that are present or absent together under one
bit of the presence word; or a move to the next 4-byte boundary (R196, R198). -/
inductive Item
  | fixed (width value : Nat)
  | optional (present : Bool) (fields : List (Nat × Nat))
  | align4
deriving DecidableEq, Repr

/-- A completion (R179). -/
structure Completion where
  kind : Nat
  ring : Ring
  position : Nat
  request : Nat
  outcome : OutcomeCode
  provisional : Bool
  overSoft : Bool
  items : List Item
deriving DecidableEq, Repr

/-- How far a command in progress has come: fetched; holding its claim while a decision of `blocks` blocks is awaited
(R35, R80); being carried out over several steps; or settled and waiting to be written (R174). -/
inductive Phase
  | untaken
  | claimed (blocks : Nat)
  | working
  | settled (completion : Completion)
deriving DecidableEq, Repr

/-- An entry of a ring's in-progress list (R171). -/
structure InProgress where
  kind : Nat
  position : Nat
  request : Nat
  command : Option HostCommand
  phase : Phase
deriving DecidableEq, Repr

/-- The figures a NIGHT-REPORT carries (R142). -/
structure NightReport where
  nightNumber : Nat
  skipped : Bool
  epoch : Option Nat
  carriedOver : Nat
  frozenTonight : Nat
  extentsCopied : Nat
  blocksCopied : Nat
  failures : Nat
  frozenEntries : Nat
  frozenBlocks : Nat
  openEntries : Nat
  openBlocks : Nat
deriving DecidableEq, Repr

/-- Notices (R176). -/
inductive Notice
  | stageRequest (slot handle volume length : Nat)
  | reclaim (handles : List Nat)
  | nightReport (report : NightReport)
deriving DecidableEq, Repr

/-- Attention causes, in priority order from 1 (R177). -/
inductive Cause
  | halted | duplicateStation | configDefaulted | linkDown | restoreExpired | nightEnd | linkUp | catalogueChanged
  | responses
deriving DecidableEq, Repr

/-- The sources the response writer serves in turn (R175). -/
inductive Source | ringU | ringB | notices
deriving DecidableEq, Repr

/-- One command ring's side of the port (R169, R170, R171). -/
structure RingState where
  /-- Fetch position, which is the consumer index the station writes. -/
  fetch : Nat
  /-- Known producer index. -/
  known : Nat
  notify : Bool
  /-- A DMA read of the producer index is under way. -/
  reading : Bool
  inProgress : List InProgress
deriving DecidableEq, Repr

/-- The units that hand notices over (R176). -/
inductive NoticeUnit | reclaim | staging | report
deriving DecidableEq, Repr

/-- The Command Queue Port (chapter 9). -/
structure Cqp where
  base : Option Nat
  ringU : RingState
  ringB : RingState
  /-- Response Ring write position. -/
  write : Nat
  /-- Last-read Response Ring consumer index. -/
  lastConsumer : Nat
  consecutiveU : Nat
  rotation : Source
  notices : List Notice
  /-- The units known to wait with a notice to hand over, the one that has waited longest first (R176). -/
  waiting : List NoticeUnit
  /-- Notices written since the last QUEUE-BASE write (R198). -/
  noticeCount : Nat
  /-- Running time since the last read of a full Response Ring's consumer index (R174). -/
  pollTimer : Nat
  /-- The last read of the consumer index found the ring full, and the next read waits for a window write or 100 µs (R174). -/
  roomWait : Bool
  /-- The pending set: bit (priority − 1) for each cause (R177, R199). -/
  causes : BitVec 16
  /-- True for POSTED, in which INT_N is asserted (R178). -/
  posted : Bool
  /-- Records posted since the reset (R199). -/
  recordNumber : Nat
deriving DecidableEq, Repr

/-! ### Quota Standing Unit -/

/-- A pending pair with its apply day (R1, R11). -/
structure PendingLimits where
  soft : Option Nat
  hard : Option Nat
  applyDay : Nat
deriving DecidableEq, Repr

/-- Grace state: NONE, or RUNNING with an expiry day (R1). -/
inductive Grace | none | running (expiryDay : Nat)
deriving DecidableEq, Repr

/-- An entry of a contribution list (R115). -/
structure Contribution where
  station : Nat
  value : Nat
  incarnation : Nat
deriving DecidableEq, Repr

/-- An owner record (R1). -/
structure OwnerRec where
  cls : Nat
  soft : Option Nat
  hard : Option Nat
  pendingLimits : Option PendingLimits
  /-- L, local live blocks. -/
  live : Nat
  /-- R, local reserved blocks. -/
  reserved : Nat
  /-- H, local held blocks. -/
  held : Nat
  /-- P, peer sum. -/
  peerSum : Nat
  grace : Grace
  lastAnnounced : Nat
  dirty : Bool
  contributions : List Contribution
deriving DecidableEq, Repr

/-- An owner record as START FRESH leaves it (R26); also every record the table does not list. -/
def OwnerRec.fresh : OwnerRec :=
  ⟨0, .none, .none, .none, 0, 0, 0, 0, .none, 0, false, []⟩

/-- A class record (R3). -/
structure ClassRec where
  graceDays : Nat
  weight : Nat
  policy : Policy
deriving DecidableEq, Repr

/-- A class record after any reset (R3). -/
def ClassRec.afterReset : ClassRec := ⟨7, 0, .asStation⟩

/-- The Quota Standing Unit (chapter 1). `owners` lists the records that differ from `OwnerRec.fresh`. -/
structure Qsu where
  owners : Table OwnerRec
  classes : List ClassRec
deriving DecidableEq, Repr

/-! ### Extent Tracking Unit -/

/-- An extent record (R30). Its handle is its key. -/
structure ExtentRec where
  owner : Nat
  volume : Nat
  length : Nat
  state : ExtentState
  birth : Option Nat
  death : Option Nat
  copy : Option CopyState
  mark : Bool
  context : Option Nat
deriving DecidableEq, Repr

/-- Sweep states (R41). -/
inductive SweepState | idle | running | paused
deriving DecidableEq, Repr

/-- The reclaim sweep (R41). `range` holds the entries of the sweep's range it has still to visit, in list order: its head
is the position and its last entry the fixed end. -/
structure Sweep where
  state : SweepState
  range : List Nat
  again : Bool
deriving DecidableEq, Repr

/-- What holds a claim on a handle and a place (R35, R80). -/
inductive Claimant | charge | item
deriving DecidableEq, Repr

/-- A claimed handle, with its place in the Extent Table (R35, R80). -/
structure Claim where
  handle : Nat
  claimant : Claimant
deriving DecidableEq, Repr

/-- The Extent Tracking Unit (chapter 2). -/
structure Xtu where
  extents : Table ExtentRec
  /-- The Held List, head first (R40). -/
  heldList : List Nat
  sweep : Sweep
  /-- The reclaim batch (R46). -/
  batch : List Nat
  /-- Running time since the batch's first handle joined (R46). -/
  batchTimer : Nat
  /-- A posting condition has arisen and the batch waits for room (R46). -/
  batchWaiting : Bool
  claims : List Claim
deriving DecidableEq, Repr

/-! ### Snapshot Catalogue Unit -/

/-- Origins of a snapshot record (R53). -/
inductive Origin
  | localCall
  | peerCall (station : Nat) (kind : CallKind)
  | nightCall
  | loaded
deriving DecidableEq, Repr

/-- A snapshot record (R53). `due` is false for RETAINED and true for DUE. -/
structure SnapRec where
  epoch : Nat
  takenDay : Nat
  takenSecond : Nat
  origin : Origin
  retention : Nat
  expiryDay : Nat
  group : Nat
  undrained : Nat
  due : Bool
deriving DecidableEq, Repr

/-- The Snapshot Catalogue Unit (chapter 3). -/
structure Scu where
  /-- The Catalogue, epochs ascending (R52). -/
  catalogue : List SnapRec
  /-- K (R54). -/
  current : Nat
  highestHeard : Nat
  lastMissed : Option Nat
  /-- The protected-group set: bit g for group g (R55, R196). -/
  protectedSet : BitVec 8
  /-- MODEL: the largest birth or death epoch of an extent loaded in this REBUILD (R54). -/
  loadedMax : Nat
deriving DecidableEq, Repr

/-! ### Restore Context Unit -/

/-- Context states (R75). -/
inductive ContextState | free | opened | limited
deriving DecidableEq, Repr

/-- A restore context (R75). `idle` is the running time since the idle deadline was last restarted; the deadline passes
when it reaches the restore idle timeout. -/
structure Context where
  state : ContextState
  epoch : Option Nat
  owner : Option Nat
  override : Bool
  tag : Option Nat
  items : List Nat
  idle : Option Nat
deriving DecidableEq, Repr

/-- A FREE context (R75). -/
def Context.free : Context := ⟨.free, none, none, false, none, [], none⟩

/-- The work that ends a context (R84, R86, R87). -/
inductive EndKind | commit | abort | expiry
deriving DecidableEq, Repr

/-- A piece of RCU work under way: the items and blocks it has dealt with so far (R76, R85). -/
structure EndWork where
  kind : EndKind
  context : Nat
  items : Nat
  blocks : Nat
deriving DecidableEq, Repr

/-- The Restore Context Unit (chapter 4). -/
structure Rcu where
  contexts : List Context
  work : Option EndWork
deriving DecidableEq, Repr

/-! ### Peer Segment Interface -/

/-- The contents a BEACON gives a Station Table entry (R92, R106). -/
structure BeaconContents where
  night : Bool
  cycle : Nat
  epoch : Nat
  demand : Nat
deriving DecidableEq, Repr

/-- A bulletin's payload (R92). -/
inductive Payload
  | beacon (contents : BeaconContents)
  | usage (owner value : Nat)
  | snapcall (epoch : Nat) (kind : CallKind)
deriving DecidableEq, Repr

/-- An occupied holding slot (R94). -/
structure Holding where
  payload : Payload
  attempts : Nat
deriving DecidableEq, Repr

/-- The holding slots, in the arbiter's priority order (R96). -/
inductive SlotKind | snapcall | beacon | usage
deriving DecidableEq, Repr

/-- Transmitter states (R95). -/
inductive TxState | idle | deferring | sending | backoff
deriving DecidableEq, Repr

/-- A bulletin as it stands on the wire (R92). -/
structure Bulletin where
  sender : Nat
  incarnation : Nat
  sequence : Nat
  payload : Payload
deriving DecidableEq, Repr

/-- An attempt on the wire: the slot it came from and the bulletin it carries (R96). -/
structure Attempt where
  slot : SlotKind
  bulletin : Bulletin
deriving DecidableEq, Repr

/-- A bulletin in the receive FIFO: its first 40 bytes, whether it ran on past them, and its echo mark (R101, R200). -/
structure Received where
  data : List Byte
  oversize : Bool
  echo : Bool
deriving DecidableEq, Repr

/-- States of a Station Table entry (R106). -/
inductive PeerState | absent | present | silent
deriving DecidableEq, Repr

/-- A peer entry of the Station Table (R106). The forget timer counts reference cycles. -/
structure Peer where
  state : PeerState
  incarnation : Option Nat
  lastSequence : Option Nat
  silence : Nat
  forgetTimer : Nat
  beacon : Option BeaconContents
  reference : Option Nat
  caughtUp : Bool
  purgeTarget : Option Nat
deriving DecidableEq, Repr

/-- A peer entry after any reset (R106). -/
def Peer.afterReset : Peer := ⟨.absent, none, none, 0, 0, none, none, false, none⟩

/-- An accepted USAGE that UVU has not yet taken (R101, R105). -/
structure HandedUsage where
  peer : Nat
  owner : Nat
  value : Nat
deriving DecidableEq, Repr

/-- The generator: the values that seeded it at START and the draws made since (R97). MODEL: `draws` counts the free values
taken. -/
structure Generator where
  station : Nat
  incarnation : Nat
  draws : Nat
deriving DecidableEq, Repr

/-- The Peer Segment Interface (chapter 5). The SELF entry is `stc.stationNumber`, `incarnation` and `sequence`. -/
structure Psi where
  incarnation : Option Nat
  sequence : Nat
  snapcall : Option Holding
  beacon : Option Holding
  usage : Option Holding
  tx : TxState
  attempt : Option Attempt
  /-- A BEACON payload was replaced while its attempt was on the wire (R94). -/
  beaconReplaced : Bool
  /-- The drawn delay and the running time of it that has passed (R97). -/
  backoffDelay : Nat
  backoffTimer : Nat
  /-- The medium is carrying a transmission of another station (R95). -/
  mediumBusy : Bool
  /-- Running time for which the medium has been idle, counted up to the gap (R95). -/
  gapTimer : Nat
  /-- MODEL: the attempt that ended with its last bit at this moment, for the echo mark (R101). -/
  justSent : Option Bulletin
  fifo : List Received
  handed : Option HandedUsage
  peers : List Peer
  /-- The beacon tick timer, absent while it is stopped (R100). -/
  beaconTimer : Option Nat
  /-- Beacon ticks since entry to LISTENING, counted up to three (R100). -/
  listeningTicks : Nat
  overflowCount : Nat
  errorCount : Nat
  dropCount : Nat
  generator : Generator
deriving DecidableEq, Repr

/-! ### Usage View Unit -/

/-- Purge modes (R119). -/
inductive PurgeMode | all | stale (target : Nat)
deriving DecidableEq, Repr

/-- A running purge walk (R119). -/
structure PurgeWalk where
  station : Nat
  mode : PurgeMode
  position : Nat
deriving DecidableEq, Repr

/-- The Usage View Unit (chapter 6). -/
structure Uvu where
  poolInUse : Nat
  viewIncomplete : Bool
  dirtyList : List Nat
  overflowed : Bool
  /-- Reports of R8 that UVU has not yet acted on, oldest first (R8, R121). -/
  reports : List Nat
  /-- The walker's interval counter, absent while it is stopped (R123). -/
  walkerTimer : Option Nat
  consecutiveDirty : Nat
  sweepPointer : Nat
  walkCycle : Nat
  /-- Stations whose ALL request waits, ascending (R118). -/
  allRequests : List Nat
  /-- Stations whose STALE request waits, with its target (R118). -/
  staleRequests : Table Nat
  walk : Option PurgeWalk
deriving DecidableEq, Repr

/-! ### Change Journal Unit -/

/-- An entry of the open generation (R131). -/
structure OpenEntry where
  handle : Nat
  length : Nat
  birth : Nat
deriving DecidableEq, Repr

/-- Copy steps (R131). -/
inductive CopyStep | waiting | staging | ready | inFlight
deriving DecidableEq, Repr

/-- An entry of the frozen generation (R131). -/
structure FrozenEntry where
  handle : Nat
  length : Nat
  birth : Nat
  tag : Nat
  step : CopyStep
  attempts : Nat
  nightsFailed : Nat
  failedNight : Option Nat
deriving DecidableEq, Repr

/-- Window states (R134). -/
inductive WindowState | closed | opened | skipped | settling
deriving DecidableEq, Repr

/-- The night figures that are counted as the night runs (R134, R142). -/
structure NightFigures where
  skipped : Bool
  carriedOver : Nat
  frozenTonight : Nat
  extentsCopied : Nat
  blocksCopied : Nat
  failures : Nat
deriving DecidableEq, Repr

/-- Night figures after a reset and at a window start (R134). -/
def NightFigures.zero : NightFigures := ⟨false, 0, 0, 0, 0, 0⟩

/-- The Change Journal Unit (chapter 7). -/
structure Cju where
  openGen : List OpenEntry
  frozen : List FrozenEntry
  nightNumber : Nat
  window : WindowState
  nightly : Option Nat
  /-- Running time left to the window end, absent while there is none (R134). -/
  windowLeft : Option Nat
  figures : NightFigures
  /-- The report of a settled night, built and not yet handed over (R142). -/
  report : Option NightReport
deriving DecidableEq, Repr

/-! ### Offsite Duplication Unit -/

/-- States of a staging slot (R147). -/
inductive SlotState | free | staging | ready | inFlight
deriving DecidableEq, Repr

/-- The extent a slot holds (R147). -/
structure SlotLoad where
  handle : Nat
  volume : Nat
  length : Nat
deriving DecidableEq, Repr

/-- A staging slot (R147). `timer` is the running time since the take for staging, present while STAGING. -/
structure StagingSlot where
  state : SlotState
  load : Option SlotLoad
  timer : Option Nat
  check : Option Word32
deriving DecidableEq, Repr

/-- A FREE slot (R147). -/
def StagingSlot.free : StagingSlot := ⟨.free, none, none, none⟩

/-- States of a place of the outstanding-frame table. AWAITING-REPLY has no timer while the frame is being sent (R157). -/
inductive PlaceState
  | awaiting (timer : Option Nat)
  | busyWait (timer : Nat)
  | resendDue
deriving DecidableEq, Repr

/-- A place of the outstanding-frame table, kept in first-send order (R157). -/
structure Place where
  handle : Nat
  slot : Nat
  attempt : Nat
  state : PlaceState
deriving DecidableEq, Repr

/-- A frame the station sends on the Offsite Link (R153, R158, R201). -/
inductive Frame
  | hello (station incarnation : Nat)
  | idle (station : Nat)
  | copy (station handle attempt target volume owner length birth : Nat) (death : Option Nat) (tag : Nat)
      (check : Word32) (data : List Byte)
deriving DecidableEq, Repr

/-- The Offsite Duplication Unit (chapter 8). -/
structure Odu where
  slots : List StagingSlot
  /-- READY slots, in ready order (R147). -/
  readyOrder : List Nat
  places : List Place
  /-- Slots of the places in RESEND-DUE, in the order in which they became due (R158). -/
  resends : List Nat
  attemptNumber : Nat
  /-- True for UP (R153). -/
  linkUp : Bool
  silenceTimer : Nat
  /-- Running time since the station last finished sending a frame, or since the last HELLO (R153, R154). -/
  sendTimer : Nat
  /-- The attempt number of the COPY frame being sent (R156). -/
  sending : Option Nat
  /-- The frame most recently put on the link. -/
  lastFrame : Option Frame
  /-- Slots whose copy completion waits for reclaim batch room, oldest first (R45, R159). -/
  completions : List Nat
  ownDemand : Nat
  ownShare : Nat
  /-- Thousandths of a block (R165). -/
  tokens : Nat
  tokenTimer : Nat
deriving DecidableEq, Repr

/-! ### The whole machine -/

/-- The state of the part. -/
structure State where
  stc : Stc
  cqp : Cqp
  qsu : Qsu
  xtu : Xtu
  scu : Scu
  rcu : Rcu
  psi : Psi
  uvu : Uvu
  cju : Cju
  odu : Odu
  /-- The data areas of the eight slots, by offset in the staging window (R147). -/
  staging : Mem
  /-- What the station has written to host memory, by host address (R169, R181). -/
  host : Mem
  /-- MODEL: the steps that wait, first in, first out. -/
  pending : List Instr
deriving DecidableEq, Repr

/-- A command ring's side after any reset (R181). -/
def RingState.reset : RingState := ⟨0, 0, false, false, []⟩

def Stc.reset : Stc where
  state := .loading
  stationNumber := 0
  resetCause := .powerOn
  resetHeld := false
  config := none
  configDefaulted := false
  reads := 0
  marker := false
  haltReason := none
  clock := ⟨0, 0, 0⟩
  expiryMoment := false
  windowMoment := false
  work := .idle

def Cqp.reset : Cqp where
  base := none
  ringU := .reset
  ringB := .reset
  write := 0
  lastConsumer := 0
  consecutiveU := 0
  rotation := .ringU
  notices := []
  waiting := []
  noticeCount := 0
  pollTimer := 0
  roomWait := false
  causes := 0
  posted := false
  recordNumber := 0

def Qsu.reset : Qsu := ⟨[], List.replicate 16 ClassRec.afterReset⟩

def Xtu.reset : Xtu := ⟨[], [], ⟨.idle, [], false⟩, [], 0, false, []⟩

def Scu.reset : Scu := ⟨[], 0, 0, none, 0, 0⟩

def Rcu.reset : Rcu := ⟨List.replicate 8 Context.free, none⟩

def Psi.reset : Psi where
  incarnation := none
  sequence := 0
  snapcall := none
  beacon := none
  usage := none
  tx := .idle
  attempt := none
  beaconReplaced := false
  backoffDelay := 0
  backoffTimer := 0
  mediumBusy := false
  gapTimer := 0
  justSent := none
  fifo := []
  handed := none
  peers := List.replicate 16 Peer.afterReset
  beaconTimer := none
  listeningTicks := 0
  overflowCount := 0
  errorCount := 0
  dropCount := 0
  generator := ⟨0, 0, 0⟩

def Uvu.reset : Uvu := ⟨0, false, [], false, [], none, 0, 0, 0, [], [], none⟩

def Cju.reset : Cju := ⟨[], [], 0, .closed, none, none, .zero, none⟩

def Odu.reset : Odu where
  slots := List.replicate 8 StagingSlot.free
  readyOrder := []
  places := []
  resends := []
  attemptNumber := 0
  linkUp := false
  silenceTimer := 0
  sendTimer := 0
  sending := none
  lastFrame := none
  completions := []
  ownDemand := 0
  ownShare := 0
  tokens := 0
  tokenTimer := 0

/-- The machine right after power-on (R183), with straps 0 and empty tables in place of the undefined content of table
memory (assumption 2). -/
def State.reset : State where
  stc := .reset
  cqp := .reset
  qsu := .reset
  xtu := .reset
  scu := .reset
  rcu := .reset
  psi := .reset
  uvu := .reset
  cju := .reset
  odu := .reset
  staging := []
  host := []
  pending := []

end Sys2Proof.Machine
end

