-- ==== Sys2Proof/Machine/Ops.lean ====
section
/-! DEFINITION. The named operations every meaning is written over: tables and addressed memory, the station state, the
attention causes, the rings and their completions, the notices, and entry to HALTED. -/

namespace Sys2Proof.Machine

/-- What a step answers. -/
abbrev Result := Host.Outcome State Fault Refusal

/-! ### Tables -/

/-- The entry of a key. -/
def tableFind {α : Type} (k : Nat) : Table α → Option α
  | [] => none
  | (k', v) :: rest => if k = k' then some v else tableFind k rest

/-- The table with the entry of a key set. -/
def tableInsert {α : Type} (k : Nat) (v : α) : Table α → Table α
  | [] => [(k, v)]
  | (k', v') :: rest =>
    if k < k' then (k, v) :: (k', v') :: rest
    else if k = k' then (k, v) :: rest
    else (k', v') :: tableInsert k v rest

/-- The table without the entry of a key. -/
def tableErase {α : Type} (k : Nat) : Table α → Table α
  | [] => []
  | (k', v) :: rest => if k = k' then tableErase k rest else (k', v) :: tableErase k rest

/-- Every key of a table lies above a bound, and the keys rise strictly. -/
def tableAbove {α : Type} (low : Nat) : Table α → Bool
  | [] => true
  | (k, _) :: rest => decide (low < k) && tableAbove k rest

/-- The keys of a table rise strictly. -/
def tableRising {α : Type} : Table α → Bool
  | [] => true
  | (k, _) :: rest => tableAbove k rest

/-- A list with one element replaced by what a function makes of it. -/
def listModify {α : Type} (l : List α) (i : Nat) (f : α → α) : List α := l.modify i f

/-! ### Addressed memory: the staging window's data areas and what the station writes to host memory -/

/-- The byte at an address: 0 where the memory lists none (assumption 3). -/
def memRead (m : Mem) (a : Nat) : Byte := (tableFind a m).getD 0

/-- The memory with one byte written, in canonical form. -/
def memWrite (m : Mem) (a : Nat) (b : Byte) : Mem := if b = 0 then tableErase a m else tableInsert a b m

/-- The memory with bytes written from an address on. -/
def memWriteBytes (m : Mem) (a : Nat) : List Byte → Mem
  | [] => m
  | b :: rest => memWriteBytes (memWrite m a b) (a + 1) rest

/-- `n` bytes from an address on. -/
def memReadBytes (m : Mem) (a : Nat) : Nat → List Byte
  | 0 => []
  | n + 1 => memRead m a :: memReadBytes m (a + 1) n

/-- The canonical form: addresses strictly rising, no byte 0 listed. -/
def Memory.wf (m : Mem) : Bool := tableRising m && m.all fun c => c.2 != 0

/-! ### The station state, the image and the clock -/

/-- LISTENING, ACTIVE or MUTE: tables in use, ring U commands accepted (R187). -/
def StationState.operates : StationState → Bool
  | .listening | .active | .mute => true
  | _ => false

/-- The states in which the receiver hears (R101). -/
def StationState.receives : StationState → Bool
  | .rebuild | .listening | .active | .mute => true
  | _ => false

/-- The states in which a ring is fetched (R171). -/
def StationState.fetches (st : StationState) : Ring → Bool
  | .u => st.receives
  | .b => st.receives || decide (st = .stopped)

/-- The configuration image the units read; the built-in defaults stand for it while there is none. -/
def State.config (s : State) : ConfigImage := s.stc.config.getD .defaults

/-- Today (R193). -/
def State.today (s : State) : Nat := s.stc.clock.day

/-- The station operates (R187). -/
def State.operates (s : State) : Bool := s.stc.state.operates

def State.withState (s : State) (st : StationState) : State := { s with stc := { s.stc with state := st } }

/-! ### Attention causes -/

/-- Priority numbers, from 1 (R177). -/
def Cause.priority : Cause → Nat
  | .halted => 1
  | .duplicateStation => 2
  | .configDefaulted => 3
  | .linkDown => 4
  | .restoreExpired => 5
  | .nightEnd => 6
  | .linkUp => 7
  | .catalogueChanged => 8
  | .responses => 9

/-- The bit of a cause in the cause set (R199). -/
def Cause.bit (c : Cause) : BitVec 16 := BitVec.ofNat 16 (2 ^ (c.priority - 1))

/-- A cause is raised: it joins the pending set (R177). -/
def State.raise (s : State) (c : Cause) : State := { s with cqp := { s.cqp with causes := s.cqp.causes ||| c.bit } }

/-! ### Rings and completions -/

def Cqp.ring (c : Cqp) : Ring → RingState
  | .u => c.ringU
  | .b => c.ringB

def Cqp.withRing (c : Cqp) (r : Ring) (x : RingState) : Cqp :=
  match r with
  | .u => { c with ringU := x }
  | .b => { c with ringB := x }

/-- What a unit settles a command with (R179). -/
structure Verdict where
  outcome : OutcomeCode
  provisional : Bool
  overSoft : Bool
  items : List Item
deriving DecidableEq, Repr

/-- A verdict without flags and items: refusals and bare DONE. -/
def OutcomeCode.bare (o : OutcomeCode) : Verdict := ⟨o, false, false, []⟩

/-- A verdict that carries items and no admission decision. -/
def OutcomeCode.carrying (o : OutcomeCode) (items : List Item) : Verdict := ⟨o, false, false, items⟩

/-- The completion a verdict gives a command in progress (R179). -/
def completionOf (r : Ring) (e : InProgress) (v : Verdict) : Completion :=
  ⟨e.kind, r, e.position, e.request, v.outcome, v.provisional, v.overSoft, v.items⟩

/-- A command that is not yet settled takes a new phase. -/
def InProgress.move (e : InProgress) (p : Phase) : InProgress :=
  match e.phase with
  | .settled _ => e
  | _ => { e with phase := p }

/-- The in-progress list with the command of a ring position settled. -/
def settleList (r : Ring) (position : Nat) (v : Verdict) (l : List InProgress) : List InProgress :=
  l.map fun e => if e.position = position then e.move (.settled (completionOf r e v)) else e

/-- A unit settles the command of a ring position: its completion is formed (R174). -/
def State.settle (s : State) (r : Ring) (position : Nat) (v : Verdict) : State :=
  let x := s.cqp.ring r
  { s with cqp := s.cqp.withRing r { x with inProgress := settleList r position v x.inProgress } }

/-- The command of a ring position takes a phase. -/
def State.phase (s : State) (r : Ring) (position : Nat) (p : Phase) : State :=
  let x := s.cqp.ring r
  let l := x.inProgress.map fun e => if e.position = position then e.move p else e
  { s with cqp := s.cqp.withRing r { x with inProgress := l } }

/-- The Ring B command a unit may take: the one in progress, when it is the given command and no unit has taken it. -/
def State.fetchedB (s : State) (c : HostCommand) : Option InProgress :=
  match s.cqp.ringB.inProgress with
  | [] => none
  | e :: _ => if s.stc.state.fetches .b && decide (e.command = some c) && decide (e.phase = .untaken) then some e else none

/-- The Ring B command being carried out over several steps, when it is the given command. -/
def State.workingB (s : State) (c : HostCommand) : Option InProgress :=
  match s.cqp.ringB.inProgress with
  | [] => none
  | e :: _ => if s.stc.state.fetches .b && decide (e.command = some c) && decide (e.phase = .working) then some e else none

/-- XTU takes Ring U commands in list order (R35): the first that it has not taken. -/
def State.nextU (s : State) : Option InProgress :=
  s.cqp.ringU.inProgress.find? fun e => decide (e.phase = .untaken)

/-- The Ring U command XTU may take, when it is the given command. -/
def State.fetchedU (s : State) (c : HostCommand) : Option InProgress :=
  match s.nextU with
  | none => none
  | some e => if s.stc.state.fetches .u && decide (e.command = some c) then some e else none

/-- The station states in which a command is accepted, by the table of section 9.5. -/
def acceptedIn (c : HostCommand) (st : StationState) : Bool :=
  match c with
  | .charge .. | .release .. | .expireSnapshot .. | .restoreOpen .. | .restoreItem .. | .restoreCommit .. | .restoreAbort ..
  | .staged .. | .stageFailed .. => st.operates
  | .start .. => decide (st = .stopped)
  | .rebuildDone | .loadOwner .. | .loadSnapshot .. | .loadExtent .. => decide (st = .rebuild)
  | .callSnapshot .. => decide (st = .active) || decide (st = .mute)
  | .setClock .. | .setLimits .. | .setOwnerClass .. | .setClass .. | .protectGroup .. | .unprotectGroup ..
  | .inspectOwner .. | .inspectSnapshots .. | .inspectPeers .. | .inspectNight => st.receives

/-- The ring a command belongs to (section 9.5). -/
def ringOf : HostCommand → Ring
  | .charge .. | .release .. => .u
  | _ => .b

/-- A unit takes a Ring B command: completed NOT-NOW in a state that does not accept it (R173), else settled by the unit. -/
def serveB (c : HostCommand) (s : State) (unit : InProgress → Result) : Result :=
  match s.fetchedB c with
  | none => .next s
  | some e => if acceptedIn c s.stc.state then unit e else .next (s.settle .b e.position (OutcomeCode.bare .notNow))

/-! ### Notices -/

/-- Every part of the staging condition but queue room (R148). -/
def State.stagingWanted (s : State) : Bool :=
  s.odu.slots.any (fun x => decide (x.state = .free)) && decide (s.cju.window = .opened) && decide (s.stc.state = .active) &&
    s.odu.linkUp && s.cju.frozen.any (fun e => decide (e.step = .waiting))

/-- A unit has a notice to hand over (R176). -/
def State.noticeWanted (s : State) : NoticeUnit → Bool
  | .reclaim => s.xtu.batchWaiting
  | .staging => s.stagingWanted
  | .report => s.cju.report.isSome

/-- The units that wait with a notice, the one that has waited longest first (R176). The reclaim batch and the report join in
the event in which they begin to wait, behind staging where it wants to hand a notice over by then; so where staging is not
listed it has waited least. -/
def State.noticeOrder (s : State) : List NoticeUnit :=
  let l := s.cqp.waiting.filter s.noticeWanted
  if s.stagingWanted && !l.contains .staging then l ++ [.staging] else l

/-- The units that have waited longer than the given one (R176). -/
def State.noticeAhead (s : State) (u : NoticeUnit) : Nat := (s.noticeOrder.takeWhile fun v => decide (v ≠ u)).length

/-- A unit begins to wait with a notice, or keeps its turn (R176). -/
def State.await (s : State) (u : NoticeUnit) : State :=
  { s with cqp := { s.cqp with waiting := if s.noticeOrder.contains u then s.noticeOrder else s.noticeOrder ++ [u] } }

/-- A unit no longer waits: its notice is handed over, or it gives up its turn (R176). -/
def Cqp.leaveTurn (c : Cqp) (u : NoticeUnit) : Cqp := { c with waiting := c.waiting.filter fun v => decide (v ≠ u) }

/-- The queue has a place for a unit's notice once the units that have waited longer have theirs (R176). -/
def State.canHand (s : State) (u : NoticeUnit) : Bool :=
  decide (s.cqp.notices.length + s.noticeAhead u < Config.noticeCapacity)

/-- A unit hands a notice to the Outbound Notice Queue (R176). -/
def State.hand (s : State) (u : NoticeUnit) (n : Notice) : State :=
  { s with cqp := { s.cqp with notices := s.cqp.notices ++ [n] }.leaveTurn u }

/-! ### Entry to HALTED -/

/-- What PSI does at entry to MUTE or HALTED: the attempt is stopped and the slots emptied (R103, R113). -/
def Psi.quiet (p : Psi) : Psi :=
  { p with snapcall := none, beacon := none, usage := none, tx := .idle, attempt := none, beaconReplaced := false }

/-- What ODU does at entry to HALTED (R167). -/
def Odu.halt (o : Odu) : Odu :=
  { o with sending := none, linkUp := false, ownDemand := 0, ownShare := 0, tokens := 0 }

/-- A fault takes the station into HALTED in one event (R195, R113, R167, R123). -/
def State.enterHalted (s : State) (r : HaltReason) : State :=
  let s := s.raise .halted
  { s with
    stc := { s.stc with
      state := .halted
      haltReason := some r
      marker := s.stc.marker && decide (r = .ring)
      work := .idle }
    psi := { s.psi.quiet with beaconTimer := none }
    uvu := { s.uvu with walkerTimer := none }
    odu := s.odu.halt }

/-- A step that reads or writes table memory: an uncorrectable error ends it without writing and halts the station with
reason TABLE; a correctable one is corrected on the way (R28, R51, R74, R91, R129, R146, R167, R195). -/
def withTables (ecc : Ecc) (s : State) (t : State) : Result :=
  match ecc with
  | .uncorrectable => .next (s.enterHalted .table)
  | _ => .next t

/-- A step that reads or writes table memory only where `p` holds: elsewhere its event touches on-chip state alone and meets no
error. Where the manual does not say which events touch the tables, that is the model's reading (assumption 53). -/
def withTablesIf (p : Bool) (ecc : Ecc) (s : State) (t : State) : Result := if p then withTables ecc s t else .next t

end Sys2Proof.Machine
end

