-- ==== Sys2Proof/Machine/Operands.lean ====
section
/-! DEFINITION. Every byte layout a partner sees (chapter 11): the packing of command fields and items, command entries,
response entries, the attention record, window words, bulletins with their CRC-16, link frames with their check, the
configuration image, and the check value over staged data. -/

namespace Sys2Proof.Machine

/-! ### Common encoding (R196) -/

/-- A quantity in `width` bytes, least significant first. -/
def leBytes : (width value : Nat) → List Byte
  | 0, _ => []
  | w + 1, v => BitVec.ofNat 8 v :: leBytes w (v / 256)

/-- The quantity of bytes written least significant first. -/
def leValue : List Byte → Nat
  | [] => 0
  | b :: rest => b.toNat + 256 * leValue rest

/-- The next offset that is a multiple of a width. -/
def alignUp (offset width : Nat) : Nat := (offset + (width - 1)) / width * width

/-- Bytes that no field occupies. -/
def zeros (n : Nat) : List Byte := List.replicate n 0

/-- A byte string of a given length: cut, or filled with 0. -/
def fitTo (n : Nat) (l : List Byte) : List Byte := l.take n ++ zeros (n - l.length)

/-- The field of a width at an offset. -/
def fieldAt (l : List Byte) (offset width : Nat) : Nat := leValue ((l.drop offset).take width)

/-- The fields of the given widths, each at the next multiple of its width from `offset` on. -/
def readFields (l : List Byte) (offset : Nat) : List Nat → List Nat
  | [] => []
  | w :: rest => fieldAt l (alignUp offset w) w :: readFields l (alignUp offset w + w) rest

/-- Fields packed from `offset` on: the bytes, and the offset after the last. -/
def packFields (offset : Nat) : List (Nat × Nat) → List Byte × Nat
  | [] => ([], offset)
  | (w, v) :: rest =>
    let place := alignUp offset w
    let (bytes, last) := packFields (place + w) rest
    (zeros (place - offset) ++ leBytes w v ++ bytes, last)

/-- Items packed from `offset` on; the fields of an absent item are 0. -/
def packItems (offset : Nat) : List Item → List Byte
  | [] => []
  | .fixed w v :: rest =>
    let (bytes, last) := packFields offset [(w, v)]
    bytes ++ packItems last rest
  | .optional present fields :: rest =>
    let (bytes, last) := packFields offset (if present then fields else fields.map fun f => (f.1, 0))
    bytes ++ packItems last rest
  | .align4 :: rest => zeros (alignUp offset 4 - offset) ++ packItems (alignUp offset 4) rest

/-- The presence word of a list of items: bit i for the i-th that may be absent. -/
def presenceWord (bit : Nat) : List Item → Nat
  | [] => 0
  | .optional present _ :: rest => (if present then 2 ^ bit else 0) + presenceWord (bit + 1) rest
  | _ :: rest => presenceWord bit rest

/-- An item for a value that may be absent. -/
def optItem (width : Nat) (v : Option Nat) : Item := .optional v.isSome [(width, v.getD 0)]

/-- A flag: 0 clear, 1 set. -/
def flagByte (b : Bool) : Nat := if b then 1 else 0

/-! ### Named values (R196) -/

def startModeNamed : Nat → Option StartMode
  | 1 => some .fresh
  | 2 => some .resume
  | 3 => some .auto
  | _ => none

def limitsWhenNamed : Nat → Option LimitsWhen
  | 1 => some .now
  | 2 => some .rollover
  | _ => none

def policyNamed : Nat → Option Policy
  | 1 => some .asStation
  | 2 => some .refuse
  | 3 => some .partly
  | 4 => some .allow
  | _ => none

/-- Override: CLEAR 1, SET 2. -/
def overrideNamed : Nat → Option Bool
  | 1 => some false
  | 2 => some true
  | _ => none

def extentStateNamed : Nat → Option ExtentState
  | 1 => some .reserved
  | 2 => some .live
  | 3 => some .held
  | _ => none

def copyStateNamed : Nat → Option CopyState
  | 1 => some .awaiting
  | 2 => some .copied
  | 3 => some .exempt
  | _ => none

def callKindNamed : Nat → Option CallKind
  | 1 => some .admin
  | 2 => some .night
  | _ => none

def startModeByte : StartMode → Nat
  | .fresh => 1
  | .resume => 2
  | .auto => 3

def callKindByte : CallKind → Nat
  | .admin => 1
  | .night => 2

def StationState.byte : StationState → Nat
  | .loading => 1
  | .stopped => 2
  | .rebuild => 3
  | .listening => 4
  | .active => 5
  | .mute => 6
  | .halted => 7

def HaltReason.byte : HaltReason → Nat
  | .ring => 1
  | .table => 2

/-- Reset causes, numbered in the order of R182 (assumption 13). -/
def ResetCause.byte : ResetCause → Nat
  | .powerOn => 1
  | .pin => 2
  | .station => 3

def PeerState.byte : PeerState → Nat
  | .absent => 1
  | .present => 2
  | .silent => 3

def WindowState.byte : WindowState → Nat
  | .closed => 1
  | .opened => 2
  | .skipped => 3
  | .settling => 4

def CopyStep.byte : CopyStep → Nat
  | .waiting => 1
  | .staging => 2
  | .ready => 3
  | .inFlight => 4

def ContextState.byte : ContextState → Nat
  | .free => 1
  | .opened => 2
  | .limited => 3

/-- Origin byte, calling station and call kind; the last two are 0 unless the origin is PEER-CALL. -/
def Origin.bytes : Origin → Nat × Nat × Nat
  | .localCall => (1, 0, 0)
  | .peerCall st k => (2, st, callKindByte k)
  | .nightCall => (3, 0, 0)
  | .loaded => (4, 0, 0)

/-- Snapshot state: RETAINED 1, DUE 2. -/
def dueByte (due : Bool) : Nat := if due then 2 else 1

/-- Outcome codes (R198). -/
def OutcomeCode.number : OutcomeCode → Nat
  | .done => 1
  | .granted => 2
  | .grantedWarn => 3
  | .deniedHard => 4
  | .deniedGrace => 5
  | .held => 6
  | .freed => 7
  | .admittedOver => 8
  | .refusedLimit => 9
  | .limited => 10
  | .noExtent => 11
  | .notLive => 12
  | .alreadyReleased => 13
  | .duplicate => 14
  | .tableFull => 15
  | .badField => 16
  | .illegal => 17
  | .notNow => 18
  | .catalogueFull => 19
  | .noSnapshot => 20
  | .callPending => 21
  | .epochExhausted => 22
  | .contextFull => 23
  | .noContext => 24
  | .itemLimit => 25
  | .notVisible => 26
  | .stale => 27
  | .noTables => 28

/-! ### Command entries (R198) -/

/-- A bit of the presence word of a command entry. -/
def presentIn (entry : List Byte) (bit : Nat) : Bool := (fieldAt entry 1 1).testBit bit

/-- A field that may be absent. -/
def optField (entry : List Byte) (bit v : Nat) : Option Nat := if presentIn entry bit then some v else none

/-- The command of a kind byte and an entry: the fields start at byte 8 and lie as the packing rule places them. -/
def commandOfEntry (entry : List Byte) : Option HostCommand :=
  let f := readFields entry 8
  match fieldAt entry 0 1 with
  | 1 => match f [4, 2, 1, 2] with
    | [h, o, v, l] => some (.charge h o v l)
    | _ => none
  | 2 => match f [4] with
    | [h] => some (.release h)
    | _ => none
  | 3 => match f [1, 2, 2, 4] with
    | [m, i, d, x] => some (.start (startModeNamed m) i d x)
    | _ => none
  | 4 => some .rebuildDone
  | 5 => match f [2, 1, 4, 4, 4] with
    | [o, c, so, ha, g] => some (.loadOwner o c (optField entry 0 so) (optField entry 1 ha) (optField entry 2 g))
    | _ => none
  | 6 => match f [4, 2, 4, 2, 1] with
    | [e, d, x, r, g] => some (.loadSnapshot e d x r g)
    | _ => none
  | 7 => match f [4, 2, 1, 2, 1, 4, 4, 1] with
    | [h, o, v, l, st, b, d, c] =>
      some (.loadExtent h o v l (extentStateNamed st) b (optField entry 0 d) (copyStateNamed c))
    | _ => none
  | 8 => match f [2, 4] with
    | [d, x] => some (.setClock d x)
    | _ => none
  | 9 => match f [2, 4, 4, 1] with
    | [o, so, ha, w] => some (.setLimits o (optField entry 0 so) (optField entry 1 ha) (limitsWhenNamed w))
    | _ => none
  | 10 => match f [2, 1] with
    | [o, c] => some (.setOwnerClass o c)
    | _ => none
  | 11 => match f [1, 1, 1, 1] with
    | [c, g, w, p] => some (.setClass c g w (policyNamed p))
    | _ => none
  | 12 => match f [2, 1] with
    | [r, g] => some (.callSnapshot r g)
    | _ => none
  | 13 => match f [4] with
    | [e] => some (.expireSnapshot e)
    | _ => none
  | 14 => match f [1] with
    | [g] => some (.protectGroup g)
    | _ => none
  | 15 => match f [1] with
    | [g] => some (.unprotectGroup g)
    | _ => none
  | 16 => match f [4, 2, 1, 4] with
    | [e, o, v, t] => some (.restoreOpen e o (overrideNamed v) t)
    | _ => none
  | 17 => match f [1, 4, 4, 4, 1] with
    | [c, t, x, h, v] => some (.restoreItem c t x h v)
    | _ => none
  | 18 => match f [1, 4] with
    | [c, t] => some (.restoreCommit c t)
    | _ => none
  | 19 => match f [1, 4] with
    | [c, t] => some (.restoreAbort c t)
    | _ => none
  | 20 => match f [1, 4] with
    | [x, h] => some (.staged x h)
    | _ => none
  | 21 => match f [1, 4] with
    | [x, h] => some (.stageFailed x h)
    | _ => none
  | 22 => match f [2] with
    | [o] => some (.inspectOwner o)
    | _ => none
  | 23 => match f [4] with
    | [e] => some (.inspectSnapshots e)
    | _ => none
  | 24 => match f [1, 2] with
    | [st, o] => some (.inspectPeers st (optField entry 0 o))
    | _ => none
  | 25 => some .inspectNight
  | _ => none

/-! ### Response entries, the attention record and STATION-STATE (R197, R198, R199) -/

/-- A response entry holds 256 bytes. -/
def responseBytes : Nat := 256

/-- A completion as it stands in the Response Ring; that byte 11 and the bytes after the items are 0 is the model's reading
(assumption 13). -/
def Completion.bytes (c : Completion) : List Byte :=
  fitTo responseBytes <|
    leBytes 1 1 ++ leBytes 1 c.kind ++ leBytes 1 (match c.ring with | .u => 1 | .b => 2) ++ leBytes 1 c.outcome.number ++
    leBytes 4 c.request ++ leBytes 2 c.position ++ leBytes 1 (flagByte c.provisional + 2 * flagByte c.overSoft) ++
    leBytes 1 0 ++ leBytes 4 (presenceWord 0 c.items) ++ packItems 16 c.items

/-- The entry type of a notice. -/
def Notice.kind : Notice → Nat
  | .stageRequest .. => 2
  | .reclaim _ => 3
  | .nightReport _ => 4

/-- The items of a NIGHT-REPORT, in the order of R142. -/
def NightReport.items (r : NightReport) : List Item :=
  [.fixed 4 r.nightNumber, .fixed 1 (flagByte r.skipped), optItem 4 r.epoch, .fixed 4 r.carriedOver, .fixed 4 r.frozenTonight,
   .fixed 4 r.extentsCopied, .fixed 4 r.blocksCopied, .fixed 4 r.failures, .fixed 4 r.frozenEntries, .fixed 4 r.frozenBlocks,
   .fixed 4 r.openEntries, .fixed 4 r.openBlocks]

/-- The items of a notice (R198). -/
def Notice.items : Notice → List Item
  | .stageRequest slot handle volume length => [.fixed 1 slot, .fixed 4 handle, .fixed 1 volume, .fixed 2 length]
  | .reclaim handles => .fixed 1 handles.length :: handles.map fun h => .fixed 4 h
  | .nightReport r => r.items

/-- A notice as it stands in the Response Ring, with its notice count; the presence word lies where a completion's does
(assumption 13). A count past 4,294,967,295 is written modulo 2^32, the model's choice (assumption 48). -/
def Notice.bytes (n : Notice) (count : Nat) : List Byte :=
  fitTo responseBytes <|
    leBytes 1 n.kind ++ zeros 3 ++ leBytes 4 count ++ zeros 4 ++ leBytes 4 (presenceWord 0 n.items) ++ packItems 16 n.items

/-- The priority number of the first cause of a set. -/
def firstCause (causes : BitVec 16) : Nat :=
  ((List.range 16).find? fun i => causes.getLsbD i).elim 0 (· + 1)

/-- The attention record (R178, R199). A record number past 4,294,967,295 is written modulo 2^32, the model's choice
(assumption 48); that the bytes of the record which no field occupies are 0 is its reading (assumption 13). -/
def State.attentionRecord (s : State) (number : Nat) : List Byte :=
  fitTo 64 <|
    leBytes 1 s.stc.state.byte ++ leBytes 1 (firstCause s.cqp.causes) ++
    leBytes 1 (if s.cqp.causes.getLsbD 0 then s.stc.haltReason.elim 0 HaltReason.byte else 0) ++ leBytes 1 0 ++
    leBytes 2 s.cqp.causes.toNat ++ leBytes 2 0 ++ leBytes 4 number

/-- What a read of STATION-STATE returns (R168, R197); LOADING while RESET_N is held low (R183). -/
def State.stationStateWord (s : State) : Word32 :=
  BitVec.ofNat 32 ((if s.stc.resetHeld then StationState.loading.byte else s.stc.state.byte) + 16 * (s.stc.stationNumber % 16) +
    256 * flagByte s.stc.configDefaulted + 512 * flagByte s.stc.marker)

/-- The six locations of the window (R168, R197). -/
inductive WindowLocation | queueBase | notifyU | notifyB | attentionRelease | stationReset | stationState
deriving DecidableEq, Repr

/-- The location at an offset of the window (R197). That an offset inside a location but not at its start is none is the model's
choice (assumption 49). -/
def locationAt (offset : Nat) : Option WindowLocation :=
  match offset with
  | 0x00 => some .queueBase
  | 0x08 => some .notifyU
  | 0x0C => some .notifyB
  | 0x10 => some .attentionRelease
  | 0x14 => some .stationReset
  | 0x18 => some .stationState
  | _ => none

/-- The step a host write in the window makes, with the straps as they then stand and the answer of the DMA writes it leads to
(R168, R197). -/
def windowStep (offset value straps : Nat) (dma : DmaWrite) : Instr :=
  match locationAt offset with
  | some .queueBase => .queueBase value dma
  | some .notifyU => .notifyU value
  | some .notifyB => .notifyB value
  | some .attentionRelease => .attentionRelease value
  | some .stationReset => .stationReset value straps
  | some .stationState | none => .unmappedWrite offset value

/-- What a read of a window location returns: STATION-STATE at its own, and 0 at any other location (R168). -/
def State.windowRead (s : State) (offset : Nat) : Nat :=
  if locationAt offset = some .stationState then s.stationStateWord.toNat else 0

/-- Two bytes of table memory lie in one word, of 32 bits (R147; assumption 39). -/
def sameWord (a b : Nat) : Bool := decide (a / 4 = b / 4)

/-- What a host read of the staging window returns: the data area as it stands, with 0xFF in every byte of a word that holds one
of the offsets at which an uncorrectable error stands (R147). -/
def State.stagingRead (s : State) (offset n : Nat) (bad : List Nat) : List Byte :=
  (List.range n).map fun i => if bad.any (sameWord (offset + i)) then 0xFF else memRead s.staging (offset + i)

/-- INT_N is asserted, which it is while a record is POSTED (R178). -/
def State.intAsserted (s : State) : Bool := s.cqp.posted

/-! ### Bulletins (R200) -/

def crc16Bit (r : BitVec 16) : BitVec 16 := if r.msb then (r <<< 1) ^^^ 0x1021 else r <<< 1

def crc16Byte (r : BitVec 16) (b : Byte) : BitVec 16 :=
  Nat.repeat crc16Bit 8 (r ^^^ (b.setWidth 16 <<< 8))

/-- The CRC-16 over bytes in order, from 0xFFFF. -/
def crc16 (l : List Byte) : BitVec 16 := l.foldl crc16Byte 0xFFFF

def Payload.kind : Payload → Nat
  | .beacon _ => 1
  | .usage .. => 2
  | .snapcall .. => 3

/-- The 32 payload bytes. A BEACON's sender state is always ACTIVE (R92). -/
def Payload.bytes : Payload → List Byte
  | .beacon c => fitTo 32 <|
      leBytes 1 StationState.active.byte ++ leBytes 1 (flagByte c.night) ++ leBytes 2 c.cycle ++ leBytes 4 c.epoch ++
      leBytes 4 c.demand
  | .usage owner value => fitTo 32 (leBytes 2 owner ++ leBytes 4 value)
  | .snapcall epoch kind => fitTo 32 (leBytes 4 epoch ++ leBytes 1 (callKindByte kind))

/-- The 40 bytes of a bulletin on the segment. -/
def Bulletin.bytes (b : Bulletin) : List Byte :=
  let head := leBytes 1 b.payload.kind ++ leBytes 1 b.sender ++ leBytes 2 b.incarnation ++ leBytes 2 b.sequence ++ b.payload.bytes
  head ++ leBytes 2 (crc16 head).toNat

/-- The payload of a kind byte, or none where the kind or the call kind names none. -/
def payloadOf (kind : Nat) (p : List Byte) : Option Payload :=
  match kind with
  | 1 => some (.beacon ⟨(fieldAt p 1 1).testBit 0, fieldAt p 2 2, fieldAt p 4 4, fieldAt p 8 4⟩)
  | 2 => some (.usage (fieldAt p 0 2) (fieldAt p 2 4))
  | 3 => (callKindNamed (fieldAt p 4 1)).map fun k => .snapcall (fieldAt p 0 4) k
  | _ => none

/-- The sender, incarnation and sequence fields of 40 bytes, whatever the rest holds. -/
def bulletinIdentity (l : List Byte) : Nat × Nat × Nat := (fieldAt l 1 1, fieldAt l 2 2, fieldAt l 4 2)

/-- The bulletin of 40 bytes, or none where the damage test discards it (R102, R200). -/
def bulletinOf (l : List Byte) : Option Bulletin :=
  let (sender, incarnation, sequence) := bulletinIdentity l
  if (crc16 (l.take 38)).toNat = fieldAt l 38 2 ∧ sender < 16 then
    (payloadOf (fieldAt l 0 1) (l.drop 6)).map fun p => ⟨sender, incarnation, sequence, p⟩
  else none

/-! ### Offsite Link frames (R201) -/

def check32Bit (r : Word32) : Word32 := if r.msb then (r <<< 1) ^^^ 0x04C11DB7 else r <<< 1

def check32Byte (r : Word32) (b : Byte) : Word32 :=
  Nat.repeat check32Bit 8 (r ^^^ (b.setWidth 32 <<< 24))

/-- The frame check over the header and the body. -/
def frameCheck (l : List Byte) : Word32 := l.foldl check32Byte 0xFFFFFFFF ^^^ 0xFFFFFFFF

/-- A frame of a kind, a station number and a body; that the bytes which no field occupies are sent as 0 is the model's choice
(assumption 41). -/
def frameBytes (kind station : Nat) (body : List Byte) : List Byte :=
  let l := leBytes 1 kind ++ leBytes 1 station ++ zeros 2 ++ leBytes 4 body.length ++ body
  l ++ leBytes 4 (frameCheck l).toNat

/-- A frame as the station sends it. -/
def Frame.bytes : Frame → List Byte
  | .hello st inc => frameBytes 1 st (leBytes 2 inc ++ zeros 2)
  | .idle st => frameBytes 3 st []
  | .copy st handle attempt target volume owner length birth death tag check data =>
    frameBytes 4 st <|
      leBytes 4 handle ++ leBytes 2 attempt ++ leBytes 1 target ++ leBytes 1 volume ++ leBytes 2 owner ++ leBytes 2 length ++
      leBytes 4 birth ++ leBytes 4 (death.getD 0) ++ leBytes 4 tag ++ leBytes 4 check.toNat ++ zeros 4 ++ data

/-- The step a frame received whole makes (R154, R201): a frame whose check differs, whose kind is unknown, whose body length
is not its kind's, or whose kind is HELLO or COPY is a bad frame. That the reason of a NAK is one byte, and that the bytes
which no field occupies (2 and 3 of the header, 6 and 7 of an ACK's body, 7 of a NAK's) are ignored whatever they hold, is the
model's choice (assumption 41). -/
def frameStep (l : List Byte) (ecc : Ecc) : Instr :=
  let size := fieldAt l 4 4
  let body := (l.drop 8).take size
  if l.length = 12 + size ∧ (frameCheck (l.take (8 + size))).toNat = fieldAt l (8 + size) 4 then
    match fieldAt l 0 1, size with
    | 2, 0 => .readyFrame ecc
    | 3, 0 => .idleFrame
    | 5, 12 => .ack (fieldAt body 0 4) (fieldAt body 4 2) (BitVec.ofNat 32 (fieldAt body 8 4)) ecc
    | 6, 8 => .nak (fieldAt body 0 4) (fieldAt body 4 2) (fieldAt body 6 1) ecc
    | _, _ => .badFrame l
  else .badFrame l

/-! ### The configuration image (R184, R186, R202) -/

/-- Word i of the image. -/
def imageWord (l : List Byte) (i : Nat) : Word16 := BitVec.ofNat 16 (fieldAt l (2 * i) 2)

/-- The image is valid: word 31 is 0x6C35 combined with words 0 to 30. -/
def imageValid (l : List Byte) : Bool :=
  decide (l.length = 64) && (imageWord l 31 == (List.range 31).foldl (fun a i => a ^^^ imageWord l i) 0x6C35)

/-- A value below its range takes the lowest value of the range, one above it the highest. -/
def clampTo (low high v : Nat) : Nat := max low (min high v)

/-- The image's fields, each clamped. -/
def imageOf (l : List Byte) : ConfigImage :=
  let w := fun i => (imageWord l i).toNat
  let low := fun i => w i % 256
  let high := fun i => w i / 256
  let long := fun i => w i + 65536 * w (i + 1)
  { beaconInterval := clampTo 1 10 (w 0)
    walkerInterval := clampTo 5 1000 (w 1)
    silenceLimit := clampTo 3 60 (w 2)
    forgetLimit := clampTo 0 10080 (w 3)
    egressCap := clampTo 1 1000000 (long 4)
    linkMaximum := clampTo 1 1000000 (long 6)
    nightStart := clampTo 0 1439 (w 8)
    nightLength := clampTo 1 1439 (w 9)
    callGuard := clampTo 0 60 (w 10)
    expiryMinute := clampTo 0 1439 (w 11)
    peerRetention := clampTo 1 3650 (w 12)
    nightRetention := clampTo 1 3650 (w 13)
    peerGroup := clampTo 0 7 (low 14)
    nightGroup := clampTo 0 7 (high 14)
    idleTimeout := clampTo 60 3600 (w 15)
    defaultPartial := decide (low 16 = 2)
    selectorKey := low 17
    selectorMask := high 17
    targetMap := (List.range 16).map fun v => if v % 2 = 0 then low (18 + v / 2) else high (18 + v / 2)
    keepTables := decide (0 < high 16) }

/-! ### The check value (R152) -/

/-- Bytes taken as 32-bit words, the byte at the lowest offset least significant. -/
def wordsOf : List Byte → List Word32
  | a :: b :: c :: d :: rest => BitVec.ofNat 32 (leValue [a, b, c, d]) :: wordsOf rest
  | _ => []

/-- The check value of words in order. -/
def checkValue (words : List Word32) : Word32 := words.foldl (fun v w => v.rotateLeft 5 ^^^ w) 0xA5C35A3C

/-- The first length × 4 KiB of a slot's data area. -/
def State.slotData (s : State) (slot length : Nat) : List Byte :=
  memReadBytes s.staging (slot * Config.slotBytes) (length * 4096)

end Sys2Proof.Machine
end

