-- ==== Sys2Proof/Machine/Standing.lean ====
section
/-! DEFINITION. Quota standing (chapter 1): the four stages of R13 to R16, grace, pending limits, and the access to an owner
record that every writer of a total is one of. -/

namespace Sys2Proof.Machine

/-! ### The stages of standing -/

/-- A class record (R3). -/
def State.classRec (s : State) (c : Nat) : ClassRec := s.qsu.classes.getD c .afterReset

/-- Stage 1: Wh = ceiling(H × w / 16) (R13). -/
def weightedHeld (held weight : Nat) : Nat := (held * weight + 15) / 16

/-- Stage 2: C = L + Wh (R14). -/
def State.chargeable (s : State) (r : OwnerRec) : Nat := r.live + weightedHeld r.held (s.classRec r.cls).weight

/-- Stage 3: S = C + R + P, saturating (R15). -/
def State.standing (s : State) (r : OwnerRec) : Nat :=
  min (s.chargeable r + r.reserved + r.peerSum) Config.standingCeiling

/-- Grace is expired: RUNNING, with today on or after the expiry day (R20). -/
def Grace.expired (g : Grace) (today : Nat) : Bool :=
  match g with
  | .none => false
  | .running d => decide (d ≤ today)

/-- A figure lies above a limit that is present. -/
def aboveLimit (limit : Option Nat) (figure : Nat) : Bool :=
  match limit with
  | none => false
  | some l => decide (l < figure)

/-- Stage 4: the admission decision for a request of n blocks, by the first matching row of R16. Grace of 0 days is expired from
its start by R19, so that the access that starts it may be denied by row 2, against the words of R21 on a period the opening
steps start: the model's choice (assumption 43). -/
def State.decision (s : State) (r : OwnerRec) (n : Nat) : OutcomeCode :=
  let after := min (s.standing r + n) Config.standingCeiling
  if aboveLimit r.hard after then .deniedHard
  else if r.grace.expired s.today && aboveLimit r.soft after then .deniedGrace
  else if aboveLimit r.soft after then .grantedWarn
  else .granted

/-- The outcome grants the request (R17). -/
def OutcomeCode.grants : OutcomeCode → Bool
  | .granted | .grantedWarn => true
  | _ => false

/-! ### Grace and pending limits -/

/-- Grace as re-evaluation leaves it (R19). -/
def State.graceAfter (s : State) (r : OwnerRec) : Grace :=
  match r.soft with
  | none => .none
  | some l =>
    if s.standing r ≤ l then .none
    else match r.grace with
      | .none => .running (s.today + (s.classRec r.cls).graceDays)
      | .running d => .running d

/-- Grace is re-evaluated (R19). -/
def State.regrace (s : State) (r : OwnerRec) : OwnerRec := { r with grace := s.graceAfter r }

/-- The pending pair replaces the limits once its apply day has come (R12). -/
def State.applyPending (s : State) (r : OwnerRec) : OwnerRec :=
  match r.pendingLimits with
  | none => r
  | some p => if p.applyDay ≤ s.today then { r with soft := p.soft, hard := p.hard, pendingLimits := none } else r

/-! ### Access to an owner record -/

/-- The record of an owner: every owner number has one (R1). -/
def State.owner (s : State) (o : Nat) : OwnerRec := (tableFind o s.qsu.owners).getD .fresh

/-- The Owner Table with one record written, in canonical form. -/
def putOwner (o : Nat) (r : OwnerRec) (t : Table OwnerRec) : Table OwnerRec :=
  if r = .fresh then tableErase o t else tableInsert o r t

/-- An owner record is written. -/
def State.withOwner (s : State) (o : Nat) (r : OwnerRec) : State :=
  { s with qsu := { s.qsu with owners := putOwner o r s.qsu.owners } }

/-- The two opening steps of an access outside REBUILD: pending limits, then grace (R7). -/
def State.opening (s : State) (r : OwnerRec) : OwnerRec :=
  if s.operates then s.regrace (s.applyPending r) else r

/-- The end of an access: grace is re-evaluated with what the access wrote, outside REBUILD (R7, R19). -/
def State.closing (s : State) (r : OwnerRec) : OwnerRec := if s.operates then s.regrace r else r

/-- The record as an access finds it, after the opening steps (R7). -/
def State.opened (s : State) (o : Nat) : OwnerRec := s.opening (s.owner o)

/-- QSU reports an owner whose C has changed, once the access ends; no report is made in REBUILD (R8, R122). -/
def State.report (s : State) (o : Nat) (changed : Bool) : State :=
  { s with uvu := { s.uvu with reports := if s.operates && changed then s.uvu.reports ++ [o] else s.uvu.reports } }

/-- One access to an owner record, taken whole: the opening steps, the access's own work, grace again, and the report of a
changed C (R6, R7, R8). -/
def State.access (s : State) (o : Nat) (work : OwnerRec → OwnerRec) : State :=
  let before := s.opened o
  let after := s.closing (work before)
  (s.withOwner o after).report o (decide (s.chargeable before ≠ s.chargeable after))

/-- An access in which XTU or RCU raises and lowers the owner's totals (R2). -/
def OwnerRec.addLive (r : OwnerRec) (n : Nat) : OwnerRec := { r with live := r.live + n }
def OwnerRec.dropLive (r : OwnerRec) (n : Nat) : OwnerRec := { r with live := r.live - n }
def OwnerRec.addHeld (r : OwnerRec) (n : Nat) : OwnerRec := { r with held := r.held + n }
def OwnerRec.dropHeld (r : OwnerRec) (n : Nat) : OwnerRec := { r with held := r.held - n }
def OwnerRec.addReserved (r : OwnerRec) (n : Nat) : OwnerRec := { r with reserved := r.reserved + n }
def OwnerRec.dropReserved (r : OwnerRec) (n : Nat) : OwnerRec := { r with reserved := r.reserved - n }

end Sys2Proof.Machine
end

