-- ==== Sys2Proof/Machine/Flags.lean ====
section
/-! DEFINITION. The flags the part computes: OVER-SOFT and PROVISIONAL on an admission outcome, and the dirty-member and
list-overflowed flags of the Dirty List. -/

namespace Sys2Proof.Machine

/-- The peer entries of the Station Table with their numbers: every entry but SELF (R106). -/
def State.peerEntries (s : State) : List (Nat × Peer) :=
  ((List.range s.psi.peers.length).zip s.psi.peers).filter fun e => decide (e.1 ≠ s.stc.stationNumber)

/-- A decision taken now is taken without a complete view of the campus (R22). -/
def State.provisional (s : State) : Bool :=
  decide (s.stc.state = .listening) || decide (s.stc.state = .mute) ||
    s.peerEntries.any fun e => decide (e.2.state = .present) && !e.2.caughtUp

/-- OVER-SOFT: the soft limit is present and the standing after the access is above it (R18). -/
def State.overSoft (s : State) (r : OwnerRec) : Bool := aboveLimit r.soft (s.standing r)

/-- The verdict of a decision, with its flags; `after` is the record as the access leaves it (R17, R18). -/
def State.decided (s : State) (o : OutcomeCode) (after : OwnerRec) (items : List Item) : Verdict :=
  ⟨o, s.provisional, s.overSoft after, items⟩

/-- The dirty-member flag of an owner record is written (R121). -/
def State.withDirty (s : State) (o : Nat) (flag : Bool) : State := s.withOwner o { s.owner o with dirty := flag }

end Sys2Proof.Machine
end

