-- ==== Sys2Proof/Machine/Tracking.lean ====
section
/-! DEFINITION. Operations on extents, the open generation of the journal, the reclaim batch and sweep, and the Catalogue
(chapters 2, 3 and 7), and the holding of a SNAPCALL (R58, R94). -/

namespace Sys2Proof.Machine

/-! ### Extent records -/

/-- The record of a handle (R29). -/
def State.extent (s : State) (h : Nat) : Option ExtentRec := tableFind h s.xtu.extents

def State.withExtent (s : State) (h : Nat) (r : ExtentRec) : State :=
  { s with xtu := { s.xtu with extents := tableInsert h r s.xtu.extents } }

def State.dropExtent (s : State) (h : Nat) : State :=
  { s with xtu := { s.xtu with extents := tableErase h s.xtu.extents } }

/-- Visible in the snapshot of an epoch: birth below it, and it at most the death (R32). -/
def ExtentRec.visible (r : ExtentRec) (epoch : Nat) : Bool :=
  decide (r.state ≠ .reserved) && r.birth.elim false (fun b => decide (b < epoch)) &&
    r.death.elim true fun d => decide (epoch ≤ d)

/-- Covered: visible in a record present in the Catalogue, RETAINED or DUE (R32). -/
def State.covered (s : State) (r : ExtentRec) : Bool := s.scu.catalogue.any fun x => r.visible x.epoch

/-- A journal member, in either generation (R30). -/
def ExtentRec.member (r : ExtentRec) : Bool := decide (r.copy = some .awaiting)

/-- A handle is claimed (R35, R80). -/
def State.claimedBy (s : State) (c : Claimant) (h : Nat) : Bool :=
  s.xtu.claims.any fun x => decide (x.handle = h) && decide (x.claimant = c)

def State.claimed (s : State) (h : Nat) : Bool := s.claimedBy .charge h || s.claimedBy .item h

def State.claim (s : State) (c : Claimant) (h : Nat) : State :=
  { s with xtu := { s.xtu with claims := s.xtu.claims ++ [⟨h, c⟩] } }

/-- A claim lapses or becomes its record (R35, R80). -/
def State.unclaim (s : State) (h : Nat) : State :=
  { s with xtu := { s.xtu with claims := s.xtu.claims.filter fun x => decide (x.handle ≠ h) } }

/-- No place is left that is neither taken nor claimed (R33, R79). -/
def State.tableFull (s : State) : Bool :=
  decide (Config.extentCapacity ≤ s.xtu.extents.length + s.xtu.claims.length)

/-! ### The open generation and the offsite selector -/

/-- The extent's code agrees with the key in the bits of the mask (R130). -/
def State.selected (s : State) (volume cls : Nat) : Bool :=
  decide ((volume * 16 + cls) &&& s.config.selectorMask = s.config.selectorKey &&& s.config.selectorMask)

/-- The copy state of an extent that becomes LIVE (R34, R84). -/
def State.copyStateFor (s : State) (volume cls : Nat) : CopyState :=
  if s.selected volume cls then .awaiting else .exempt

/-- An entry joins the tail of the open generation (R132). -/
def State.joinOpen (s : State) (h length birth : Nat) : State :=
  { s with cju := { s.cju with openGen := s.cju.openGen ++ [⟨h, length, birth⟩] } }

/-- An extent that has become LIVE joins the open generation where its copy state is PENDING (R34, R84). -/
def State.journal (s : State) (copy : CopyState) (h length birth : Nat) : State :=
  if copy = .awaiting then s.joinOpen h length birth else s

/-- An entry leaves the open generation; the order of the others is kept (R38). -/
def State.leaveOpen (s : State) (h : Nat) : State :=
  { s with cju := { s.cju with openGen := s.cju.openGen.filter fun e => decide (e.handle ≠ h) } }

/-! ### The reclaim batch and the sweep -/

def State.withSweep (s : State) (w : Sweep) : State := { s with xtu := { s.xtu with sweep := w } }

/-- The sweep over the whole Held List, RUNNING, or IDLE when the list is empty and nothing waits (R41, R44). -/
def sweepOver (heldList : List Nat) : Sweep :=
  if heldList = [] then ⟨.idle, [], false⟩ else ⟨.running, heldList, false⟩

/-- A sweep is complete: a new one starts when the sweep-again flag is set, else the state is IDLE (R44). -/
def State.completeSweep (s : State) : State :=
  s.withSweep (if s.xtu.sweep.again then sweepOver s.xtu.heldList else ⟨.idle, [], false⟩)

/-- A paused sweep goes on once its batch has been handed over (R42, R44). -/
def State.resumeSweep (s : State) : State :=
  if s.xtu.sweep.state = .paused then
    if s.xtu.sweep.range = [] then s.completeSweep else s.withSweep { s.xtu.sweep with state := .running }
  else s

/-- Handing the batch over completes a sweep and starts it again, which reads the Held List's head and tail in table memory (R40,
R41, R44). -/
def State.sweepsAgain (s : State) : Bool :=
  decide (s.xtu.sweep.state = .paused) && decide (s.xtu.sweep.range = []) && s.xtu.sweep.again && s.canHand .reclaim

/-- The batch is handed to the Outbound Notice Queue as one RECLAIM notice and emptied (R46). -/
def State.handBatch (s : State) : State :=
  let t := s.hand .reclaim (.reclaim s.xtu.batch)
  { t with xtu := { t.xtu with batch := [], batchTimer := 0, batchWaiting := false } }.resumeSweep

/-- A posting condition arises: the batch is handed over, or waits for room (R46). -/
def State.postBatch (s : State) : State :=
  if s.canHand .reclaim then s.handBatch
  else { s.await .reclaim with xtu := { s.xtu with batchWaiting := true } }

/-- A deleted handle joins the batch, which is posted when it reaches 16 (R46). -/
def State.joinBatch (s : State) (h : Nat) : State :=
  let t := { s with xtu := { s.xtu with
    batch := s.xtu.batch ++ [h]
    batchTimer := if s.xtu.batch = [] then 0 else s.xtu.batchTimer } }
  if Config.batchLimit ≤ t.xtu.batch.length then t.postBatch else t

/-- The batch holds 16 handles waiting for the queue, so no further deletion has room (R42, R45, R48). -/
def State.batchFull (s : State) : Bool := decide (Config.batchLimit ≤ s.xtu.batch.length)

/-- A sweep ends: its batch is posted, and until that is handed over the sweep is PAUSED with nothing left (R44). -/
def State.endSweep (s : State) : State :=
  if s.xtu.batch = [] then s.completeSweep else (s.withSweep { s.xtu.sweep with state := .paused, range := [] }).postBatch

/-- A sweep starts over the Held List; on an empty list it ends at once (R41). -/
def State.startSweep (s : State) : State :=
  if s.xtu.heldList = [] then s.endSweep else s.withSweep ⟨.running, s.xtu.heldList, false⟩

/-- SCU signals that a record has left the Catalogue (R41). -/
def State.signalSweep (s : State) : State :=
  match s.xtu.sweep.state with
  | .idle => s.startSweep
  | _ => s.withSweep { s.xtu.sweep with again := true }

/-- An entry leaves the Held List, and the range of a sweep that has not reached it (R40, R41). -/
def State.leaveHeld (s : State) (h : Nat) : State :=
  { s with xtu := { s.xtu with
    heldList := s.xtu.heldList.filter fun x => decide (x ≠ h)
    sweep := { s.xtu.sweep with range := s.xtu.sweep.range.filter fun x => decide (x ≠ h) } } }

/-- A HELD record is deleted: it leaves the table and the Held List, its owner's H falls in one access, and its handle joins
the batch (R42, R45, R48). -/
def State.deleteHeld (s : State) (h : Nat) (r : ExtentRec) : State :=
  (((s.dropExtent h).leaveHeld h).access r.owner fun o => o.dropHeld r.length).joinBatch h

/-! ### The Catalogue -/

/-- The record of an epoch (R52). -/
def State.snapshot (s : State) (epoch : Nat) : Option SnapRec :=
  s.scu.catalogue.find? fun r => decide (r.epoch = epoch)

def State.withCatalogue (s : State) (c : List SnapRec) : State := { s with scu := { s.scu with catalogue := c } }

/-- The record of an epoch is rewritten. -/
def State.editSnapshot (s : State) (epoch : Nat) (f : SnapRec → SnapRec) : State :=
  s.withCatalogue (s.scu.catalogue.map fun r => if r.epoch = epoch then f r else r)

/-- A record placed at the position its epoch gives it (R52, R70). -/
def placeSnapshot (r : SnapRec) : List SnapRec → List SnapRec
  | [] => [r]
  | x :: rest => if r.epoch < x.epoch then r :: x :: rest else x :: placeSnapshot r rest

/-- The pin count: contexts OPEN or LIMITED that name the epoch (R53). -/
def State.pins (s : State) (epoch : Nat) : Nat :=
  (s.rcu.contexts.filter fun c => decide (c.state ≠ .free) && decide (c.epoch = some epoch)).length

/-- A group is in the protected-group set (R55). -/
def State.protectedGroup (s : State) (g : Nat) : Bool := s.scu.protectedSet.getLsbD g

/-- The removal test of a record passes (R66). -/
def State.removable (s : State) (r : SnapRec) : Bool :=
  r.due && decide (s.pins r.epoch = 0) && !s.protectedGroup r.group && decide (r.undrained = 0)

/-- A record leaves the Catalogue and XTU is signalled; attention is raised unless a completion reports it (R67). -/
def State.removeSnapshot (s : State) (epoch : Nat) (reported : Bool) : State :=
  let t := (s.withCatalogue (s.scu.catalogue.filter fun r => decide (r.epoch ≠ epoch))).signalSweep
  if reported then t else t.raise .catalogueChanged

/-- The removal test of the record of an epoch is taken, and the record removed when it passes (R66). -/
def State.removalTest (s : State) (epoch : Nat) : State :=
  match s.snapshot epoch with
  | none => s
  | some r => if s.removable r then s.removeSnapshot epoch false else s

/-- The removal test of several records, in order. -/
def State.removalTests (s : State) (epochs : List Nat) : State := epochs.foldl State.removalTest s

/-- The second-of-day is at or after the expiry minute (R63). -/
def State.pastExpiryMinute (s : State) : Bool := decide (60 * s.config.expiryMinute ≤ s.stc.clock.second)

/-- An expiry pass: RETAINED records whose expiry day has come become DUE, and each takes the removal test (R63). -/
def State.expiryPass (s : State) : State :=
  let falls := fun r : SnapRec => !r.due && decide (r.expiryDay ≤ s.today)
  let epochs := (s.scu.catalogue.filter falls).map SnapRec.epoch
  (s.withCatalogue (s.scu.catalogue.map fun r => if falls r then { r with due := true } else r)).removalTests epochs

/-! ### Calls -/

/-- The newest epoch in the last beacon held of each PRESENT peer (R57). -/
def State.heardEpochs (s : State) : List Nat :=
  s.peerEntries.filterMap fun e => if e.2.state = .present then e.2.beacon.map BeaconContents.epoch else none

/-- The epoch a local or night call chooses, which may pass the largest epoch (R57). -/
def State.chosenEpoch (s : State) : Nat := 1 + s.heardEpochs.foldl max (max s.scu.current s.scu.highestHeard)

/-- A record made by a call joins the tail, and K becomes its epoch (R54, R56). -/
def State.makeRecord (s : State) (epoch : Nat) (origin : Origin) (retention group : Nat) : State :=
  let r : SnapRec := ⟨epoch, s.stc.clock.day, s.stc.clock.second, origin, retention, s.stc.clock.day + retention, group, 0, false⟩
  { s with scu := { s.scu with catalogue := s.scu.catalogue ++ [r], current := epoch } }

/-- A slot has become occupied in ACTIVE: an IDLE transmitter enters DEFER (R95). -/
def Psi.wake (p : Psi) : Psi := { p with tx := if p.tx = .idle then .deferring else p.tx }

/-- An own SNAPCALL is placed in its holding slot (R58, R94). -/
def State.holdSnapcall (s : State) (epoch : Nat) (kind : CallKind) : State :=
  { s with psi := { s.psi with snapcall := some ⟨.snapcall epoch kind, 0⟩ }.wake }

/-- The Catalogue has no place left (R52). -/
def State.catalogueFull (s : State) : Bool := decide (Config.catalogueCapacity ≤ s.scu.catalogue.length)

end Sys2Proof.Machine
end

