-- ==== Sys2Proof/Machine/Copying.lean ====
section
/-! DEFINITION. Operations on the frozen generation, the night, the staging slots, the outstanding frames and the egress
share (chapters 7 and 8). -/

namespace Sys2Proof.Machine

/-! ### The frozen generation (R133) -/

def State.withFrozen (s : State) (f : List FrozenEntry) : State := { s with cju := { s.cju with frozen := f } }

/-- The entry of a handle in the frozen generation. -/
def State.frozenEntry (s : State) (h : Nat) : Option FrozenEntry := s.cju.frozen.find? fun e => decide (e.handle = h)

/-- A frozen entry is rewritten in its position. -/
def State.editFrozen (s : State) (h : Nat) (f : FrozenEntry → FrozenEntry) : State :=
  s.withFrozen (s.cju.frozen.map fun e => if e.handle = h then f e else e)

/-- Step write, and take for staging (R133). -/
def State.stepWrite (s : State) (h : Nat) (step : CopyStep) : State := s.editFrozen h fun e => { e with step := step }

/-- Revert in place: WAITING with attempt count 0 (R133). -/
def FrozenEntry.reverted (e : FrozenEntry) : FrozenEntry := { e with step := .waiting, attempts := 0 }

def State.revert (s : State) (h : Nat) : State := s.editFrozen h FrozenEntry.reverted

/-- Return to head: the entries, in the order given, go ahead of all others as WAITING with their counts kept (R133, R140). -/
def State.returnToHead (s : State) (handles : List Nat) : State :=
  let moved := handles.filterMap fun h => (s.frozenEntry h).map fun e => { e with step := .waiting }
  s.withFrozen (moved ++ s.cju.frozen.filter fun e => !handles.contains e.handle)

/-- Failure re-queue: WAITING at the tail, with nights failed raised once a night and one failure counted (R139). -/
def State.failurePath (s : State) (h : Nat) : State :=
  match s.frozenEntry h with
  | none => s
  | some e =>
    let again := decide (e.failedNight = some s.cju.nightNumber)
    let e' := { e with
      step := .waiting
      attempts := 0
      nightsFailed := if again then e.nightsFailed else min 255 (e.nightsFailed + 1)
      failedNight := some s.cju.nightNumber }
    { s with cju := { s.cju with
      frozen := s.cju.frozen.filter (fun x => decide (x.handle ≠ h)) ++ [e']
      figures := { s.cju.figures with failures := s.cju.figures.failures + 1 } } }

/-- Frozen blocks not yet copied (R131). -/
def Cju.frozenBlocks (c : Cju) : Nat := (c.frozen.map FrozenEntry.length).sum

/-- Open blocks (R131). -/
def Cju.openBlocks (c : Cju) : Nat := (c.openGen.map OpenEntry.length).sum

/-- Frozen entries in a step (R131). -/
def Cju.stepCount (c : Cju) (step : CopyStep) : Nat := (c.frozen.filter fun e => decide (e.step = step)).length

/-! ### The night -/

/-- Whole seconds left in the window (R134). -/
def Cju.secondsLeft (c : Cju) : Option Nat := c.windowLeft.map (· / Config.second)

/-- The report of the night from its figures and the journal as it now stands (R142). -/
def Cju.buildReport (c : Cju) : NightReport where
  nightNumber := c.nightNumber
  skipped := c.figures.skipped
  epoch := c.nightly
  carriedOver := c.figures.carriedOver
  frozenTonight := c.figures.frozenTonight
  extentsCopied := c.figures.extentsCopied
  blocksCopied := c.figures.blocksCopied
  failures := c.figures.failures
  frozenEntries := c.frozen.length
  frozenBlocks := c.frozenBlocks
  openEntries := c.openGen.length
  openBlocks := c.openBlocks

/-- The night is settled once no frame is outstanding and no completion waits; its report is then built and waits for
NIGHT_REPORT, also where the queue has room (R141, R142; assumption 40). -/
def State.settleNight (s : State) : State :=
  if s.cju.window = .settling ∧ s.cju.report = none ∧ s.odu.places = [] ∧ s.odu.completions = [] then
    { s.await .report with cju := { s.cju with report := some s.cju.buildReport } }
  else s

/-! ### Staging slots -/

/-- A slot by number. -/
def State.slot (s : State) (i : Nat) : StagingSlot := s.odu.slots.getD i .free

def State.withSlot (s : State) (i : Nat) (x : StagingSlot) : State :=
  { s with odu := { s.odu with slots := s.odu.slots.set i x } }

/-- A slot becomes FREE and leaves the ready order and the resends (R147). -/
def State.freeSlot (s : State) (i : Nat) : State :=
  { s with odu := { s.odu with
    slots := s.odu.slots.set i .free
    readyOrder := s.odu.readyOrder.filter fun x => decide (x ≠ i)
    resends := s.odu.resends.filter fun x => decide (x ≠ i) } }

/-- The lowest-numbered FREE slot (R148). -/
def State.lowestFreeSlot (s : State) : Option Nat := s.odu.slots.findIdx? fun x => decide (x.state = .free)

/-- The handle a slot holds. -/
def StagingSlot.handle? (x : StagingSlot) : Option Nat := x.load.map SlotLoad.handle

/-! ### The egress share (R163, R164, R165) -/

/-- The own demand (R163). -/
def State.demand (s : State) : Nat :=
  if s.cju.window ≠ .opened ∨ s.stc.state = .mute ∨ s.odu.linkUp = false ∨
      s.cju.frozen.all (fun e => decide (e.step = .inFlight)) then 0
  else
    let left := max 1 (s.cju.secondsLeft.getD 0)
    min s.config.linkMaximum ((s.cju.frozenBlocks + (left - 1)) / left)

/-- The own demand is formed from the journal; under the other conditions of R163 it is 0 without it (assumption 53). -/
def State.demandReads (s : State) : Bool := decide (s.cju.window = .opened) && decide (s.stc.state ≠ .mute) && s.odu.linkUp

/-- A demand placed in ascending order, equal demands in ascending station number. -/
def placeDemand (d : Nat × Nat) : List (Nat × Nat) → List (Nat × Nat)
  | [] => [d]
  | x :: rest => if d.2 < x.2 ∨ (d.2 = x.2 ∧ d.1 < x.1) then d :: x :: rest else x :: placeDemand d rest

/-- The fair-share fill over (station, demand) pairs in ascending order: each station's allocation (R164). -/
def fairFill (cap : Nat) : List (Nat × Nat) → List (Nat × Nat)
  | [] => []
  | d :: rest =>
    let m := rest.length + 1
    let fair := cap / m
    if d.2 ≤ fair then d :: fairFill (cap - d.2) rest
    else (d :: rest).map fun x =>
      (x.1, fair + if ((d :: rest).filter fun y => decide (y.1 < x.1)).length < cap - m * fair then 1 else 0)

/-- The stations that ask, with their demands (R164). -/
def State.askers (s : State) (own : Nat) : List (Nat × Nat) :=
  let cap := s.config.egressCap
  let peers := s.peerEntries.filterMap fun e =>
    match e.2.state, e.2.beacon with
    | .present, some b => if b.night ∧ 0 < b.demand then some (e.1, min cap b.demand) else none
    | _, _ => none
  (if 0 < own then (s.stc.stationNumber, own) :: peers else peers).foldr placeDemand []

/-- The own egress share while the window is OPEN (R164). -/
def State.share (s : State) (own : Nat) : Nat :=
  (((fairFill s.config.egressCap (s.askers own)).find? fun x => decide (x.1 = s.stc.stationNumber)).map Prod.snd).getD 0

/-- Bucket depth in blocks (R165). -/
def bucketDepth (share : Nat) : Nat := max (2 * share) 256

/-- The own share is set; a content above the new depth is cut to it (R165). -/
def Odu.withShare (o : Odu) (demand share : Nat) : Odu :=
  { o with ownDemand := demand, ownShare := share, tokens := min o.tokens (bucketDepth share * 1000) }

/-- Own demand and own share are computed afresh; the share is 0 outside the night window, in MUTE and while the link is
DOWN (R163, R164). -/
def State.computeShare (s : State) : State :=
  let own := s.demand
  { s with odu := s.odu.withShare own (if s.cju.window = .opened then s.share own else 0) }

/-- Tokens emptied and share 0, at the window end and when the link goes DOWN (R155, R162). That the own demand is 0 from the same
event on, before a tick computes it, is the model's choice (R163; assumption 46). -/
def Odu.emptyTokens (o : Odu) : Odu := { o with ownDemand := 0, ownShare := 0, tokens := 0 }

/-! ### Outstanding frames -/

/-- The place of a slot. -/
def State.placeOf (s : State) (slot : Nat) : Option Place := s.odu.places.find? fun p => decide (p.slot = slot)

/-- The place a reply matches: handle and attempt number equal, and AWAITING-REPLY (R157). -/
def State.matching (s : State) (handle attempt : Nat) : Option Place :=
  s.odu.places.find? fun p => decide (p.handle = handle) && decide (p.attempt = attempt) &&
    match p.state with
    | .awaiting _ => true
    | _ => false

/-- The place of a slot takes a state. -/
def State.movePlace (s : State) (slot : Nat) (st : PlaceState) : State :=
  { s with odu := { s.odu with places := s.odu.places.map fun p => if p.slot = slot then { p with state := st } else p } }

/-- The place of a slot is released (R157). -/
def State.releasePlace (s : State) (slot : Nat) : State :=
  { s with odu := { s.odu with places := s.odu.places.filter fun p => decide (p.slot ≠ slot) } }

/-- A frame that settles without success outside the window: its entry reverts in place (R141, R162). -/
def State.settleReverted (s : State) (p : Place) : State :=
  ((s.releasePlace p.slot).freeSlot p.slot |>.revert p.handle).settleNight

/-- A counted failure of a place: resend, failure path at the third, or reversion outside the window (R161, R162). -/
def State.countedFailure (s : State) (p : Place) : State :=
  if s.cju.window = .opened then
    let count := ((s.frozenEntry p.handle).map FrozenEntry.attempts).getD 0 + 1
    if Config.maxFailures ≤ count then ((s.releasePlace p.slot).freeSlot p.slot).failurePath p.handle
    else
      let t := (s.movePlace p.slot .resendDue).editFrozen p.handle fun e => { e with attempts := count }
      { t with odu := { t.odu with resends := t.odu.resends ++ [p.slot] } }
  else s.settleReverted p

/-- The completion of an entry must wait for reclaim batch room (R45). -/
def State.completionWaits (s : State) (handle : Nat) : Bool :=
  (s.extent handle).elim false (fun r => r.mark) && s.batchFull

/-- The copy completion of the entry a slot holds, taken whole (R138, R69, R45). -/
def State.completeCopy (s : State) (slot handle : Nat) : State :=
  match s.frozenEntry handle with
  | none => (s.freeSlot slot).settleNight
  | some e =>
    let s1 := s.freeSlot slot
    let s2 := { s1 with cju := { s1.cju with
      frozen := s1.cju.frozen.filter fun x => decide (x.handle ≠ handle)
      figures := { s1.cju.figures with
        extentsCopied := s1.cju.figures.extentsCopied + 1
        blocksCopied := s1.cju.figures.blocksCopied + e.length } } }
    let s3 := match s2.extent handle with
      | none => s2
      | some r => if r.mark then s2.deleteHeld handle r else s2.withExtent handle { r with copy := some .copied }
    let s4 := s3.editSnapshot e.tag fun r => { r with undrained := r.undrained - 1 }
    (s4.removalTest e.tag).settleNight

/-- The link goes from UP to DOWN (R155). -/
def State.linkDown (s : State) : State :=
  let lost := s.odu.places
  let t := s.returnToHead (lost.map Place.handle)
  let t := lost.foldl (fun x p => x.freeSlot p.slot) t
  let t := { t with odu := { t.odu.emptyTokens with
    linkUp := false
    sending := none
    places := []
    resends := []
    sendTimer := Config.second } }
  ({ t with cqp := t.cqp.leaveTurn .staging }.raise .linkDown).settleNight

end Sys2Proof.Machine
end

