-- ==== Sys2Proof/Machine/Campus.lean ====
section
/-! DEFINITION. Operations on the Station Table, the holding slots, the purge walks and the announcement walker (chapters 5
and 6), and entry to LISTENING and MUTE (R192, R103). -/

namespace Sys2Proof.Machine

/-! ### Notify and index reads (R170) -/

/-- While the flag is set and no read is under way, CQP clears the flag and begins a read (R170). -/
def RingState.kick (x : RingState) : RingState :=
  if x.notify && !x.reading then { x with notify := false, reading := true } else x

/-- A ring's notify pending flag is set (R170). -/
def State.notifyRing (s : State) (r : Ring) : State :=
  { s with cqp := s.cqp.withRing r { s.cqp.ring r with notify := true }.kick }

/-! ### The generator (R97, R125) -/

/-- The next draw of the generator: a free value. -/
def Generator.value (g : Generator) : Nat := Config.generatorDraw g.station g.incarnation g.draws

/-! ### The Station Table -/

/-- A peer entry by number. -/
def State.peer (s : State) (p : Nat) : Peer := s.psi.peers.getD p .afterReset

def State.withPeer (s : State) (p : Nat) (x : Peer) : State :=
  { s with psi := { s.psi with peers := s.psi.peers.set p x } }

/-- A PRESENT entry counts a beacon tick, and becomes SILENT when the count reaches the limit (R107). -/
def Peer.count (limit : Nat) (x : Peer) : Peer :=
  if x.state = .present then
    if limit ≤ x.silence + 1 then { x with state := .silent, silence := limit, forgetTimer := 0 }
    else { x with silence := x.silence + 1 }
  else x

/-! ### Purge requests and walks (R118, R119) -/

/-- A station joins a list kept ascending, once. -/
def placeStation (p : Nat) : List Nat → List Nat
  | [] => [p]
  | x :: rest => if p < x then p :: x :: rest else if p = x then x :: rest else x :: placeStation p rest

/-- When no walk runs, the request of the lowest-numbered station that has one is taken, its ALL request first (R118). -/
def Uvu.startWalk (u : Uvu) : Uvu :=
  if u.walk.isSome then u
  else match (List.range Config.stationCount).find? fun p => u.allRequests.contains p || (tableFind p u.staleRequests).isSome with
    | none => u
    | some p =>
      if u.allRequests.contains p then
        { u with allRequests := u.allRequests.filter (fun x => decide (x ≠ p)), walk := some ⟨p, .all, 0⟩ }
      else
        { u with
          staleRequests := tableErase p u.staleRequests
          walk := (tableFind p u.staleRequests).map fun t => ⟨p, .stale t, 0⟩ }

/-- An ALL request for a peer (R118). -/
def State.requestAll (s : State) (p : Nat) : State :=
  { s with uvu := { s.uvu with allRequests := placeStation p s.uvu.allRequests }.startWalk }

/-- A STALE request for a peer with its target (R118). -/
def State.requestStale (s : State) (p target : Nat) : State :=
  { s with uvu := { s.uvu with staleRequests := tableInsert p target s.uvu.staleRequests }.startWalk }

/-- An entry of a contribution list, by station. -/
def OwnerRec.contribution (r : OwnerRec) (p : Nat) : Option Contribution :=
  r.contributions.find? fun c => decide (c.station = p)

/-- A contribution placed at its station position, replacing the peer's earlier one (R115). -/
def placeContribution (c : Contribution) : List Contribution → List Contribution
  | [] => [c]
  | x :: rest =>
    if c.station < x.station then c :: x :: rest
    else if c.station = x.station then c :: rest
    else x :: placeContribution c rest

/-- The record without a peer's contribution, P falling by its value (R116, R119). -/
def OwnerRec.dropContribution (r : OwnerRec) (c : Contribution) : OwnerRec :=
  { r with
    contributions := r.contributions.filter fun x => decide (x.station ≠ c.station)
    peerSum := r.peerSum - c.value }

/-! ### Holding slots -/

/-- A BEACON is placed, replacing the payload of one that waits and keeping its attempt count (R94, R100). -/
def Psi.holdBeacon (p : Psi) (c : BeaconContents) : Psi :=
  let onWire := decide (p.tx = .sending) && decide (p.attempt.map Attempt.slot = some .beacon)
  { p with
    beacon := some ⟨.beacon c, (p.beacon.map Holding.attempts).getD 0⟩
    beaconReplaced := p.beaconReplaced || (p.beacon.isSome && onWire) }.wake

/-- The contents of the BEACON built now (R100, R163). -/
def State.beaconContents (s : State) : BeaconContents :=
  ⟨decide (s.cju.window = .opened), s.uvu.walkCycle, s.scu.current, s.odu.ownDemand⟩

/-! ### The beacon tick (R100, R107, R192, R163, R164) -/

/-- Every PRESENT peer entry counts the tick (R107). -/
def State.countSilence (s : State) : State :=
  { s with psi := { s.psi with peers := s.psi.peers.map (Peer.count s.config.silenceLimit) } }

/-- In LISTENING the tick counts toward ACTIVE, which the third enters, loading the walker's counter (R100, R192). -/
def State.countListening (s : State) : State :=
  if s.stc.state = .listening then
    let n := s.psi.listeningTicks + 1
    let t := { s with psi := { s.psi with listeningTicks := n } }
    if Config.ticksToActive ≤ n then { t.withState .active with uvu := { t.uvu with walkerTimer := some 0 } } else t
  else s

/-- In ACTIVE a BEACON is built and placed (R100). -/
def State.buildBeacon (s : State) : State :=
  if s.stc.state = .active then { s with psi := s.psi.holdBeacon s.beaconContents } else s

/-- One beacon tick: the silence counts and the share in the order the step gives (R164), then listening, then the BEACON
(assumption 8). -/
def State.beaconTick (s : State) (shareFirst : Bool) : State :=
  let t := { s with psi := { s.psi with beaconTimer := some 0 } }
  let t := if shareFirst then t.computeShare.countSilence else t.countSilence.computeShare
  t.countListening.buildBeacon

/-- A tick touches table memory: it builds a BEACON, which carries K, or forms the demand from the journal. In LISTENING before
the third tick, and in MUTE, it touches on-chip state alone (R100, R163; assumption 53). -/
def State.tickReads (s : State) : Bool :=
  decide (s.stc.state = .active) || s.demandReads ||
    decide (s.stc.state = .listening) && decide (Config.ticksToActive ≤ s.psi.listeningTicks + 1)

/-- The beacon tick as table memory answers it. -/
def State.takeTick (s : State) (tick : BeaconTick) : Result :=
  withTablesIf s.tickReads tick.ecc s (s.beaconTick tick.shareFirst)

/-- The beacon interval has run out (R100). -/
def State.tickDue (s : State) : Bool :=
  s.operates && s.psi.beaconTimer.elim false fun t => decide (s.config.beaconInterval * Config.second ≤ t)

/-! ### Entry to LISTENING and MUTE -/

/-- Entry to LISTENING, from REBUILD-DONE or at the end of a RESUME (R192, R73, R50). -/
def State.enterListening (s : State) (resumed : Bool) : State :=
  let t := { s with
    stc := { s.stc with state := .listening, work := .idle }
    psi := { s.psi with beaconTimer := some 0, listeningTicks := 0 }
    odu := { s.odu with sendTimer := Config.second } }
  let t := if resumed then t.removalTests ((t.scu.catalogue.filter fun r => r.due).map SnapRec.epoch) else t
  let t := if t.pastExpiryMinute then t.expiryPass else t
  if resumed then t.signalSweep else t

/-- Entry to MUTE, in one event, with the own demand and share 0 and the tokens cut to the bucket (R103, R123, R163, R164, R165). -/
def State.enterMute (s : State) : State :=
  { s with
    stc := { s.stc with state := .mute }
    psi := s.psi.quiet
    uvu := { s.uvu with walkerTimer := none }
    odu := s.odu.withShare 0 0 }.raise .duplicateStation

/-! ### The announcement walker (R123 to R126) -/

/-- An owner is active: its C or its last-announced value is above 0 (R125). -/
def State.ownerActive (s : State) (o : Nat) : Bool :=
  let r := s.owner o
  decide (0 < s.chargeable r) || decide (0 < r.lastAnnounced)

/-- The sweep examines up to `n` owners from the pointer on: the owner chosen, the pointer and the cycle counter (R125). -/
def sweepFrom (active : Nat → Bool) : (n pointer cycle : Nat) → Option Nat × Nat × Nat
  | 0, p, c => (none, p, c)
  | n + 1, p, c =>
    let p' := (p + 1) % Config.ownerCount
    let c' := if p' = 0 then (c + 1) % 65536 else c
    if active p then (some p, p', c') else sweepFrom active n p' c'

/-- A pick announces an owner in one access: USAGE(owner, C) is placed and C becomes the last-announced value; a dirty pick's
pop clears the dirty-member flag in the same access (R126). -/
def State.announce (s : State) (o : Nat) (popped : Bool) : State :=
  let value := s.chargeable (s.opened o)
  let t := s.access o fun r =>
    { r with lastAnnounced := s.chargeable r, dirty := if popped then false else r.dirty }
  { t with psi := { t.psi with usage := some ⟨.usage o value, 0⟩ }.wake }

/-- A sweep pick: the sweep advances and the consecutive-dirty count becomes 0 (R124, R125). -/
def State.sweepPick (s : State) : State :=
  let (found, p, c) := sweepFrom s.ownerActive Config.ownerCount s.uvu.sweepPointer s.uvu.walkCycle
  let t := { s with uvu := { s.uvu with sweepPointer := p, walkCycle := c, consecutiveDirty := 0 } }
  match found with
  | none => t
  | some o => t.announce o false

/-- One pick of the walker (R124). -/
def State.walkerPick (s : State) : State :=
  match s.uvu.dirtyList with
  | o :: rest =>
    if s.uvu.consecutiveDirty < 3 then
      { s with uvu := { s.uvu with
        dirtyList := rest
        overflowed := s.uvu.overflowed && !rest.isEmpty
        consecutiveDirty := s.uvu.consecutiveDirty + 1 } }.announce o true
    else s.sweepPick
  | [] => s.sweepPick

end Sys2Proof.Machine
end

