-- ==== Sys2Proof/Machine/Charges.lean ====
section
/-! DEFINITION. Charges, releases, the reclaim sweep and the reclaim batch (chapter 2): CHARGE, CHARGE_ADMISSION,
DIRTY_REPORT, RELEASE, SWEEP_VISIT, RECLAIM_BATCH_TIMEOUT, RECLAIM_BATCH_POST. -/

namespace Sys2Proof.Machine

/-- XTU settles a Ring U command. -/
def State.settleU (s : State) (e : InProgress) (v : Verdict) : State := s.settle .u e.position v

/-- CHARGE: a command naming a handle claimed by an earlier CHARGE waits, and is tested once that has its outcome (R35); the tests
of R33 in order; one that passes claims its handle and place until its decision (R35). -/
def execCharge (handle owner volume length : Nat) (ecc : Ecc) (s : State) : Result :=
  match s.fetchedU (.charge handle owner volume length) with
  | none => .next s
  | some e =>
    if s.claimedBy .charge handle then .next s
    else if s.operates = false then .next (s.settleU e (OutcomeCode.bare .notNow))
    else if handle = 0 ∨ length = 0 ∨ 256 < length ∨ 15 < volume then .next (s.settleU e (OutcomeCode.bare .badField))
    else withTables ecc s <|
      if (s.extent handle).isSome ∨ s.claimedBy .item handle then s.settleU e (OutcomeCode.bare .duplicate)
      else if s.tableFull then s.settleU e (OutcomeCode.bare .tableFull)
      else (s.claim .charge handle).phase .u e.position (.claimed length)

/-- The record of a granted CHARGE (R34). -/
def liveRecord (owner volume length birth : Nat) (copy : CopyState) : ExtentRec :=
  ⟨owner, volume, length, .live, some birth, none, some copy, false, none⟩

/-- The CHARGE a ring position holds while it awaits its decision. -/
def State.claimedCharge (s : State) (position : Nat) : Option (InProgress × Nat × Nat × Nat × Nat) :=
  match s.cqp.ringU.inProgress.find? fun e => decide (e.position = position) with
  | none => none
  | some e =>
    match e.command, e.phase with
    | some (.charge h o v l), .claimed _ => some (e, h, o, v, l)
    | _, _ => none

/-- CHARGE_ADMISSION: the decision for the CHARGE at a ring position, and within the same access the record, the rise of L
and the selector of a grant (R16, R17, R34); the claim ends with the outcome (R35). -/
def execChargeAdmission (position : Nat) (ecc : Ecc) (s : State) : Result :=
  match s.claimedCharge position with
  | none => .next s
  | some (e, h, o, v, l) =>
    if s.operates = false then .next s
    else withTables ecc s <|
      let r := s.opened o
      let d := s.decision r l
      let t := s.unclaim h
      if d.grants then
        let k := s.scu.current
        let copy := s.copyStateFor v r.cls
        let t := ((t.access o fun r => r.addLive l).withExtent h (liveRecord o v l k copy)).journal copy h l k
        t.settleU e (s.decided d (t.owner o) [])
      else
        let t := t.access o id
        t.settleU e (s.decided d (t.owner o) [])

/-- DIRTY_REPORT: UVU acts on the oldest report of a changed C (R121, R122). That of several reports outstanding the oldest comes
first is the model's choice (assumption 51). -/
def execDirtyReport (ecc : Ecc) (s : State) : Result :=
  match s.uvu.reports with
  | [] => .next s
  | o :: rest =>
    if s.operates = false then .next s
    else withTables ecc s <|
      let t := { s with uvu := { s.uvu with reports := rest } }
      if (s.owner o).dirty then t
      else if s.uvu.dirtyList.length < Config.dirtyCapacity then
        { t with uvu := { t.uvu with dirtyList := t.uvu.dirtyList ++ [o] } }.withDirty o true
      else { t with uvu := { t.uvu with overflowed := true } }

/-- A covered LIVE extent becomes HELD, in one event (R37). -/
def State.holdExtent (s : State) (h : Nat) (r : ExtentRec) : State :=
  let t := s.withExtent h { r with state := .held, death := some s.scu.current }
  let t := { t with xtu := { t.xtu with heldList := t.xtu.heldList ++ [h] } }
  t.access r.owner fun o => (o.dropLive r.length).addHeld r.length

/-- A LIVE extent that is not covered is deleted, in one event (R38). -/
def State.freeExtent (s : State) (h : Nat) (r : ExtentRec) : State :=
  ((s.leaveOpen h).dropExtent h).access r.owner fun o => o.dropLive r.length

/-- The items of a RELEASE that was carried out (R36). -/
def releasedItems (h : Nat) (r : ExtentRec) : List Item := [.fixed 4 h, .fixed 2 r.owner, .fixed 2 r.length]

/-- RELEASE: the tests of R36 in order; a covered LIVE extent is held (R37) and an uncovered one freed (R38). A command naming
a handle claimed by an earlier CHARGE waits (R35); no claim is on handle 0, whose test comes first. -/
def execRelease (handle : Nat) (ecc : Ecc) (s : State) : Result :=
  match s.fetchedU (.release handle) with
  | none => .next s
  | some e =>
    if s.operates = false then .next (s.settleU e (OutcomeCode.bare .notNow))
    else if handle = 0 then .next (s.settleU e (OutcomeCode.carrying .badField [.fixed 4 handle]))
    else if s.claimedBy .charge handle then .next s
    else withTables ecc s <|
      match s.extent handle with
      | none => s.settleU e (OutcomeCode.carrying .noExtent [.fixed 4 handle])
      | some r =>
        match r.state with
        | .reserved => s.settleU e (OutcomeCode.carrying .notLive [.fixed 4 handle])
        | .held => s.settleU e (OutcomeCode.carrying .alreadyReleased [.fixed 4 handle])
        | .live =>
          if s.covered r then (s.holdExtent handle r).settleU e (OutcomeCode.carrying .held (releasedItems handle r))
          else (s.freeExtent handle r).settleU e (OutcomeCode.carrying .freed (releasedItems handle r))

/-- A sweep moves past an entry; at the end of its range it ends (R42, R44). -/
def State.sweepPast (s : State) : State := if s.xtu.sweep.range = [] then s.endSweep else s

/-- What a visit does to the entry at the position (R42). -/
def State.sweepEntry (s : State) (h : Nat) : State :=
  match s.extent h with
  | none => s
  | some r =>
    if s.covered r then s
    else if r.member then s.withExtent h { r with mark := true }
    else s.deleteHeld h r

/-- The next step of a RUNNING sweep touches table memory: it visits an entry, or it ends and starts again from the Held List's
head and tail. A pause before a visit touches the sweep state alone, and so does an end that starts no sweep (R41, R42, R44;
assumption 53). -/
def State.visitsTables (s : State) : Bool :=
  if s.xtu.sweep.range = [] then s.xtu.sweep.again && (decide (s.xtu.batch = []) || s.canHand .reclaim) else !s.batchFull

/-- SWEEP_VISIT: a RUNNING sweep tests the entry at its position, or becomes PAUSED before the visit when the batch has no
room, or ends when its range is empty (R42, R43, R44). -/
def execSweepVisit (ecc : Ecc) (s : State) : Result :=
  if s.operates = false ∨ s.xtu.sweep.state ≠ .running then .next s
  else withTablesIf s.visitsTables ecc s <|
    match s.xtu.sweep.range with
    | [] => s.endSweep
    | h :: rest =>
      if s.batchFull then s.withSweep { s.xtu.sweep with state := .paused }
      else ((s.withSweep { s.xtu.sweep with range := rest }).sweepEntry h).sweepPast

/-- A posting of the batch, as table memory answers where it starts a sweep again (R44, R46, R51). -/
def State.posted (s : State) (ecc : Ecc) : Result := withTablesIf s.sweepsAgain ecc s s.postBatch

/-- RECLAIM_BATCH_TIMEOUT: 1 s after its first handle joined, a batch that does not already wait is posted (R46). -/
def execReclaimBatchTimeout (s : State) (ecc : Ecc := .clean) : Result :=
  if s.stc.state.receives ∧ s.xtu.batch ≠ [] ∧ s.xtu.batchWaiting = false ∧ Config.second ≤ s.xtu.batchTimer then s.posted ecc
  else .next s

/-- RECLAIM_BATCH_POST: a batch that waits is handed over, whole, once the queue has room; a paused sweep goes on (R46, R42,
R44). -/
def execReclaimBatchPost (s : State) (ecc : Ecc := .clean) : Result :=
  if s.stc.state.receives ∧ s.xtu.batchWaiting ∧ s.canHand .reclaim then s.posted ecc else .next s

end Sys2Proof.Machine
end

