-- ==== Sys2Proof/Machine/Starting.lean ====
section
/-! DEFINITION. START and the two walks (sections 10.4 and 2.10): START, TABLE_EMPTYING_END, CLEANUP_WALK_STEP,
CLEANUP_WALK_END, REBUILD_DONE, CHECK_WALK_VISIT, CHECK_WALK_END. -/

namespace Sys2Proof.Machine

/-- A unit settles a Ring B command. -/
def State.settleB (s : State) (e : InProgress) (v : Verdict) : State := s.settle .b e.position v

/-- The Ring B command carried out over several steps is settled (R189, R190, R191). -/
def State.settleWorking (s : State) (v : Verdict) : State :=
  match s.cqp.ringB.inProgress with
  | [] => s
  | e :: _ => s.settle .b e.position v

/-! ### START (R188, R189) -/

/-- The dispatch by mode, marker and keep-tables flag: true for FRESH, false for RESUME, none for NO-TABLES (R188). -/
def dispatchFresh (mode : StartMode) (marker keep : Bool) : Option Bool :=
  match mode, marker with
  | .fresh, _ => some true
  | .resume, true => some false
  | .resume, false => none
  | .auto, true => some (!keep)
  | .auto, false => some true

/-- The event with which a FRESH or RESUME start begins: the clock, the own identity, the generator and the walk cycle
counter (R189, R112, R125). -/
def State.beginStart (s : State) (incarnation day second : Nat) : State :=
  let g : Generator := ⟨s.stc.stationNumber, incarnation, 0⟩
  { s with
    stc := { s.stc with clock := ⟨day, second, 0⟩, expiryMoment := false, windowMoment := false }
    psi := { s.psi with incarnation := some incarnation, sequence := 0, generator := { g with draws := 1 } }
    uvu := { s.uvu with walkCycle := g.value % 65536 } }

/-- START: the tests of R188 in order, and the dispatch. A FRESH start clears the marker and begins to empty the tables; a
RESUME begins its cleanup walk (R189, R191). The event of R189 touches on-chip state; that a FRESH start, which empties the tables
from that event on, may meet a table fault in it and a RESUME, whose walk comes after it, may not, is the model's reading
(assumption 53). -/
def execStart (mode : Option StartMode) (incarnation day second : Nat) (ecc : Ecc) (s : State) : Result :=
  serveB (.start mode incarnation day second) s fun e =>
    match mode with
    | none => .next (s.settleB e (OutcomeCode.bare .badField))
    | some m =>
      if Config.daySeconds ≤ second then .next (s.settleB e (OutcomeCode.bare .badField))
      else match dispatchFresh m s.stc.marker s.config.keepTables with
        | none => .next (s.settleB e (OutcomeCode.bare .noTables))
        | some fresh => withTablesIf fresh ecc s <|
          let t := (s.beginStart incarnation day second).phase .b e.position .working
          if fresh then { t with stc := { t.stc with marker := false, work := .emptying } }
          else { t with stc := { t.stc with work := .cleaning 0 0 } }

/-- The tables as START FRESH leaves them (R26, R49, R73, R128, R145, R117). -/
def State.emptied (s : State) : State :=
  { s with
    qsu := { s.qsu with owners := [] }
    xtu := { s.xtu with extents := [], heldList := [] }
    scu := { s.scu with catalogue := [], current := 0, lastMissed := none, protectedSet := 0, loadedMax := 0 }
    uvu := { s.uvu with poolInUse := 0, viewIncomplete := false }
    cju := { s.cju with openGen := [], frozen := [], nightNumber := 0 } }

/-- The items of a START completion: the mode taken, the reset cause and the incarnation (R189, R191). -/
def State.startItems (s : State) (mode : StartMode) : List Item :=
  [.fixed 1 (startModeByte mode), .fixed 1 s.stc.resetCause.byte, .fixed 2 (s.psi.incarnation.getD 0)]

/-- TABLE_EMPTYING_END: the last table is empty; the station enters REBUILD, Ring U's notify pending flag is set and START
completes DONE (R189, R170). That the tables are emptied in this one event, so that a reset before it finds them whole, is the
model's choice (assumption 45). -/
def execTableEmptyingEnd (ecc : Ecc) (s : State) : Result :=
  if s.stc.state = .stopped ∧ s.stc.work = .emptying then
    withTables ecc s <|
      let t := { s.emptied with stc := { s.stc with state := .rebuild, work := .idle } }.notifyRing .u
      t.settleWorking (OutcomeCode.carrying .done (s.startItems .fresh))
  else .next s

/-! ### The cleanup walk (R191) -/

/-- What the cleanup walk has to deal with next. -/
inductive CleanupTarget
  | extent (handle : Nat)
  | owner
  | entry (handle : Nat)
  | peer
  | nothing
deriving DecidableEq, Repr

/-- The next record or entry of the walk, in the order of its steps (R191). Which record comes first within a step is the model's
choice: extents by ascending handle, owners and peers by ascending number, frozen entries from the head (assumption 47). -/
def State.cleanupTarget (s : State) (owner peer : Nat) : CleanupTarget :=
  match s.xtu.extents.find? fun x => decide (x.2.state = .reserved) with
  | some x => .extent x.1
  | none =>
    if owner < Config.ownerCount then .owner
    else match s.cju.frozen.find? fun x => decide (x.step ≠ .waiting) with
      | some x => .entry x.handle
      | none => if peer < Config.stationCount then .peer else .nothing

/-- A peer entry as START RESUME leaves it (R114). -/
def Peer.afterResume : Peer := { Peer.afterReset with state := .silent }

/-- What the cleanup walk deals with lies in table memory; the Station Table is on chip (R106; assumption 53). -/
def CleanupTarget.inTables : CleanupTarget → Bool
  | .extent _ | .owner | .entry _ => true
  | .peer | .nothing => false

/-- CLEANUP_WALK_STEP: one record or entry in one event (R191, R27, R50, R114, R145). -/
def execCleanupWalkStep (ecc : Ecc) (s : State) : Result :=
  match s.stc.work with
  | .cleaning owner peer =>
    if s.stc.state ≠ .stopped then .next s
    else withTablesIf (s.cleanupTarget owner peer).inTables ecc s <|
      match s.cleanupTarget owner peer with
      | .extent h => s.dropExtent h
      | .owner =>
        { s.withOwner owner { s.owner owner with reserved := 0, dirty := false } with
          stc := { s.stc with work := .cleaning (owner + 1) peer } }
      | .entry h => s.revert h
      | .peer =>
        { (if peer = s.stc.stationNumber then s else s.withPeer peer .afterResume) with
          stc := { s.stc with work := .cleaning owner (peer + 1) } }
      | .nothing => s
  | _ => .next s

/-- CLEANUP_WALK_END: nothing is left; the station enters LISTENING with the actions of R192 and START completes DONE
(R191). -/
def execCleanupWalkEnd (ecc : Ecc) (s : State) : Result :=
  match s.stc.work with
  | .cleaning owner peer =>
    if s.stc.state ≠ .stopped ∨ s.cleanupTarget owner peer ≠ .nothing then .next s
    else withTables ecc s <|
      ((s.notifyRing .u).enterListening true).settleWorking (OutcomeCode.carrying .done (s.startItems .resume))
  | _ => .next s

/-! ### REBUILD-DONE and the check walk (R48, R190) -/

/-- The death epoch by which the Held List is reordered. -/
def State.deathOf (s : State) (h : Nat) : Nat := ((s.extent h).bind ExtentRec.death).getD 0

/-- A handle placed behind every entry whose death epoch is not above its own. -/
def placeByDeath (death : Nat → Nat) (h : Nat) : List Nat → List Nat
  | [] => [h]
  | x :: rest => if death h < death x then h :: x :: rest else x :: placeByDeath death h rest

/-- The Held List by death epoch, entries with equal death epochs in load order (R48). -/
def State.heldByDeath (s : State) : List Nat := s.xtu.heldList.foldl (fun l h => placeByDeath s.deathOf h l) []

/-- REBUILD_DONE: the Held List is reordered and the check walk begins (R48, R190). -/
def execRebuildDone (ecc : Ecc) (s : State) : Result :=
  serveB .rebuildDone s fun e => withTables ecc s <|
    let t := s.phase .b e.position .working
    { t with
      xtu := { t.xtu with heldList := s.heldByDeath }
      stc := { t.stc with work := .checking s.heldByDeath 0 0 } }

/-- CHECK_WALK_VISIT: the next entry is left, marked or deleted; a deletion waits for room in the batch (R48, R42). -/
def execCheckWalkVisit (ecc : Ecc) (s : State) : Result :=
  match s.stc.work with
  | .checking (h :: rest) deleted marked =>
    if s.stc.state ≠ .rebuild then .next s
    else withTables ecc s <|
      let go := fun (t : State) (d m : Nat) => { t with stc := { t.stc with work := .checking rest d m } }
      match s.extent h with
      | none => go s deleted marked
      | some r =>
        if s.covered r then go s deleted marked
        else if r.member then go (s.withExtent h { r with mark := true }) deleted (marked + 1)
        else if s.batchFull then s
        else go (s.deleteHeld h r) (deleted + 1) marked
  | _ => .next s

/-- A batch that is not empty is posted at the end of the walk that added to it (R46, R48). -/
def State.flushBatch (s : State) : State := if s.xtu.batch = [] then s else s.postBatch

/-- CHECK_WALK_END: K is set, the marker becomes VALID, the station enters LISTENING with the actions of R192 and REBUILD-DONE
completes DONE; a batch that waits does not hold it back (R190, R54, R194). -/
def execCheckWalkEnd (ecc : Ecc) (s : State) : Result :=
  match s.stc.work with
  | .checking [] deleted marked =>
    if s.stc.state ≠ .rebuild then .next s
    else withTables ecc s <|
      let k := max s.scu.current s.scu.loadedMax
      let t := s.flushBatch
      let t := { t with scu := { t.scu with current := k }, stc := { t.stc with marker := true } }
      (t.enterListening false).settleWorking
        (OutcomeCode.carrying .done [.fixed 4 k, .fixed 4 deleted, .fixed 4 marked])
  | _ => .next s

end Sys2Proof.Machine
end

