-- ==== Sys2Proof/Machine/Snapshots.lean ====
section
/-! DEFINITION. The commands on the Catalogue, the Station Clock and the expiry pass (chapter 3 and section 10.6): SET_CLOCK,
CALL_SNAPSHOT, EXPIRE_SNAPSHOT, PROTECT_GROUP, UNPROTECT_GROUP, INSPECT_SNAPSHOTS, EXPIRY_PASS, CLOCK_ROLLOVER. -/

namespace Sys2Proof.Machine

/-- SET_CLOCK: the clock takes the day and second, and outside REBUILD an expiry pass is taken when the second-of-day is then
at or after the expiry minute; a setting is no rollover and takes no window start (R193, R63). Only the expiry pass touches the
tables. That the clock is not set where the pass meets an uncorrectable error, the event writing nothing (R195), is the model's
reading (assumption 6). -/
def execSetClock (day second : Nat) (ecc : Ecc) (s : State) : Result :=
  serveB (.setClock day second) s fun e =>
    if Config.daySeconds ≤ second then .next (s.settleB e (OutcomeCode.bare .badField))
    else
      let old := s.stc.clock
      let t := { s with stc := { s.stc with clock := ⟨day, second, 0⟩, expiryMoment := false, windowMoment := false } }
      let passes := t.operates && t.pastExpiryMinute
      let u := if passes then t.expiryPass else t
      withTablesIf passes ecc s (u.settleB e (OutcomeCode.carrying .done [.fixed 2 old.day, .fixed 4 old.second]))

/-- CALL_SNAPSHOT: the tests of R56 in order; a record at the chosen epoch, and in ACTIVE a SNAPCALL in its holding slot. -/
def execCallSnapshot (retention group : Nat) (ecc : Ecc) (s : State) : Result :=
  serveB (.callSnapshot retention group) s fun e =>
    if 7 < group then .next (s.settleB e (OutcomeCode.bare .badField))
    else if s.psi.snapcall.isSome then .next (s.settleB e (OutcomeCode.bare .callPending))
    else withTables ecc s <|
      if s.catalogueFull then s.settleB e (OutcomeCode.bare .catalogueFull)
      else if Config.countCeiling < s.chosenEpoch then s.settleB e (OutcomeCode.bare .epochExhausted)
      else
        let kept := max 1 (min 3650 retention)
        let t := s.makeRecord s.chosenEpoch .localCall kept group
        let t := if s.stc.state = .active then t.holdSnapcall s.chosenEpoch .admin else t
        t.settleB e (OutcomeCode.carrying .done
          [.fixed 4 s.chosenEpoch, .fixed 2 kept, .fixed 4 (s.stc.clock.day + kept)])

/-- EXPIRE_SNAPSHOT: the record becomes DUE and takes its removal test, reported REMOVED or DEFERRED (R64, R66, R67). -/
def execExpireSnapshot (epoch : Nat) (ecc : Ecc) (s : State) : Result :=
  serveB (.expireSnapshot epoch) s fun e => withTables ecc s <|
    match s.snapshot epoch with
    | none => s.settleB e (OutcomeCode.bare .noSnapshot)
    | some r =>
      let r' := if r.due then r else { r with expiryDay := s.today, due := true }
      let t := s.editSnapshot epoch fun _ => r'
      if t.removable r' then
        (t.removeSnapshot epoch true).settleB e (OutcomeCode.carrying .done [.fixed 4 epoch, .fixed 1 1])
      else
        t.settleB e (OutcomeCode.carrying .done
          [.fixed 4 epoch, .fixed 1 2, .fixed 1 (t.pins epoch), .fixed 1 (flagByte (t.protectedGroup r.group)),
           .fixed 4 r.undrained])

/-- The bit of a group in the protected-group set (R196). -/
def groupBit (g : Nat) : BitVec 8 := BitVec.ofNat 8 (2 ^ g)

/-- PROTECT_GROUP: the group joins the protected-group set (R65). -/
def execProtectGroup (group : Nat) (ecc : Ecc) (s : State) : Result :=
  serveB (.protectGroup group) s fun e =>
    if 7 < group then .next (s.settleB e (OutcomeCode.bare .badField))
    else withTables ecc s <|
      let set := s.scu.protectedSet ||| groupBit group
      { s with scu := { s.scu with protectedSet := set } }.settleB e (OutcomeCode.carrying .done [.fixed 1 set.toNat])

/-- UNPROTECT_GROUP: the group leaves the set, and outside REBUILD every DUE record of a group that was in it takes the
removal test, in epoch order (R65). -/
def execUnprotectGroup (group : Nat) (ecc : Ecc) (s : State) : Result :=
  serveB (.unprotectGroup group) s fun e =>
    if 7 < group then .next (s.settleB e (OutcomeCode.bare .badField))
    else withTables ecc s <|
      let set := s.scu.protectedSet &&& ~~~ groupBit group
      let t := { s with scu := { s.scu with protectedSet := set } }
      let epochs := (s.scu.catalogue.filter fun r => r.due && decide (r.group = group)).map SnapRec.epoch
      let u := if s.operates && s.protectedGroup group then t.removalTests epochs else t
      u.settleB e (OutcomeCode.carrying .done
        [.fixed 1 set.toNat, .fixed 1 (s.scu.catalogue.length - u.scu.catalogue.length)])

/-- One record as INSPECT-SNAPSHOTS reports it, from a 4-byte boundary (R71, R198). -/
def State.snapshotItems (s : State) (r : SnapRec) : List Item :=
  let (o, st, k) := r.origin.bytes
  [.align4, .fixed 4 r.epoch, .fixed 2 r.takenDay, .fixed 4 r.takenSecond, .fixed 1 o, .fixed 1 st, .fixed 1 k,
   .fixed 2 r.retention, .fixed 4 r.expiryDay, .fixed 1 r.group, .fixed 4 r.undrained, .fixed 1 (s.pins r.epoch),
   .fixed 1 (dueByte r.due)]

/-- The items INSPECT-SNAPSHOTS carries: up to four records from an epoch on, and the next epoch (R71). -/
def State.catalogueItems (s : State) (epoch : Nat) : List Item :=
  let fromHere := s.scu.catalogue.filter fun r => decide (epoch ≤ r.epoch)
  [.fixed 4 s.scu.current, .fixed 4 s.scu.highestHeard, optItem 4 s.scu.lastMissed, .fixed 1 s.scu.catalogue.length,
   .fixed 1 s.scu.protectedSet.toNat] ++ ((fromHere.take 4).map s.snapshotItems).flatten ++
  [optItem 4 ((fromHere.drop 4).head?.map SnapRec.epoch)]

/-- INSPECT_SNAPSHOTS: the Catalogue is read in one event (R71). -/
def execInspectSnapshots (epoch : Nat) (ecc : Ecc) (s : State) : Result :=
  serveB (.inspectSnapshots epoch) s fun e => withTables ecc s <|
    s.settleB e (OutcomeCode.carrying .done (s.catalogueItems epoch))

/-- EXPIRY_PASS: the running clock has reached the expiry minute, and in LISTENING, ACTIVE and MUTE the pass is taken
(R63). -/
def execExpiryPass (ecc : Ecc) (s : State) : Result :=
  if s.stc.expiryMoment then
    let t := { s with stc := { s.stc with expiryMoment := false } }
    if s.operates then withTables ecc t t.expiryPass else .next t
  else .next s

/-- The moments the running clock reaches and whose event is still to be taken: the expiry minute (R63) and the night start
(R134). -/
def State.noteMoments (s : State) : State :=
  { s with stc := { s.stc with
    expiryMoment := s.stc.expiryMoment || decide (s.stc.clock.second = 60 * s.config.expiryMinute)
    windowMoment := s.stc.windowMoment || decide (s.stc.clock.second = 60 * s.config.nightStart) } }

/-- CLOCK_ROLLOVER: the last second of the day has run out; the second-of-day returns to 0 and the day number rises, stopping
at 65,535 (R193). -/
def execClockRollover (s : State) : Result :=
  let c := s.stc.clock
  .next (if s.stc.state ≠ .loading ∧ Config.daySeconds ≤ c.second + 1 ∧ Config.second ≤ c.phase then
    { s with stc := { s.stc with clock := ⟨min Config.lastDay (c.day + 1), 0, 0⟩ } }.noteMoments
  else s)

end Sys2Proof.Machine
end

