-- ==== Sys2Proof/Machine/Night.lean ====
section
/-! DEFINITION. The night window (chapter 7): WINDOW_START, WINDOW_END, NIGHT_REPORT, INSPECT_NIGHT. -/

namespace Sys2Proof.Machine

/-! ### The window start (R134, R135, R136) -/

/-- Seconds since day 0 began, counting 86,400 to a day (R135). -/
def absoluteSecond (day second : Nat) : Nat := day * Config.daySeconds + second

/-- A record was taken within the guard (R135). -/
def State.withinGuard (s : State) (r : SnapRec) : Bool :=
  let now := absoluteSecond s.stc.clock.day s.stc.clock.second
  let taken := absoluteSecond r.takenDay r.takenSecond
  decide (taken ≤ now) && decide (now ≤ taken + 60 * s.config.callGuard)

/-- The newest record, where the call guard lets the night reuse it (R135). -/
def State.reusable (s : State) : Option SnapRec :=
  match s.scu.catalogue.getLast? with
  | none => none
  | some r => if 0 < s.config.callGuard ∧ s.withinGuard r then some r else none

/-- A night call in ACTIVE is refused (R60). -/
def State.nightCallRefused (s : State) : Bool :=
  s.psi.snapcall.isSome || s.catalogueFull || decide (Config.countCeiling < s.chosenEpoch)

/-- A night call makes its record and places SNAPCALL (R60). -/
def State.nightCall (s : State) : State :=
  ((s.makeRecord s.chosenEpoch .nightCall s.config.nightRetention s.config.nightGroup).holdSnapcall s.chosenEpoch .night).raise
    .catalogueChanged

/-- The night number of the next night (R134). -/
def nextNight (n : Nat) : Nat := if n < Config.countCeiling then n + 1 else 1

/-- A night begins: its number, its figures and its end (R134). -/
def State.beginNight (s : State) : State :=
  { s with cju := { s.cju with
    nightNumber := nextNight s.cju.nightNumber
    figures := { NightFigures.zero with carriedOver := s.cju.frozen.length }
    windowLeft := some (s.config.nightLength * 60 * Config.second) } }

/-- The night is SKIPPED (R135). -/
def State.skipNight (s : State) : State :=
  { s with cju := { s.cju with window := .skipped, figures := { s.cju.figures with skipped := true } } }

/-- An open entry as the freeze under an epoch leaves it (R136). -/
def OpenEntry.frozen (n : Nat) (e : OpenEntry) : FrozenEntry :=
  ⟨e.handle, e.length, e.birth, n, .waiting, 0, 0, none⟩

/-- The freeze under an epoch, the record's undrained count rising by the entries moved (R136, R69). -/
def State.freeze (s : State) (n : Nat) : State :=
  let below := fun e : OpenEntry => decide (e.birth < n)
  let moved := s.cju.openGen.takeWhile below
  let t := s.editSnapshot n fun r => { r with undrained := r.undrained + moved.length }
  { t with cju := { t.cju with
    openGen := s.cju.openGen.dropWhile below
    frozen := s.cju.frozen ++ moved.map (OpenEntry.frozen n)
    figures := { s.cju.figures with frozenTonight := moved.length } } }

/-- The night opens under an epoch, and the egress share is computed (R135, R136, R164). -/
def State.openNight (s : State) (n : Nat) : State :=
  let t := s.freeze n
  { t with cju := { t.cju with window := .opened, nightly := some n } }.computeShare

/-- The choice of the nightly epoch and what follows it (R135). -/
def State.takeNight (s : State) : State :=
  if s.stc.state ≠ .active then s.skipNight
  else match s.reusable with
    | some r => s.openNight r.epoch
    | none => if s.nightCallRefused then s.skipNight else s.nightCall.openNight s.chosenEpoch

/-- WINDOW_START: the running clock has reached the night start; the start is taken with the window CLOSED, in LISTENING,
ACTIVE and MUTE (R134, R135, R136). -/
def execWindowStart (ecc : Ecc) (s : State) : Result :=
  if s.stc.windowMoment then
    let t := { s with stc := { s.stc with windowMoment := false } }
    if s.operates ∧ s.cju.window = .closed then withTables ecc t t.beginNight.takeNight else .next t
  else .next s

/-! ### The window end and the report (R141, R142, R162) -/

/-- A slot in STAGING or READY is freed and its entry reverts in place (R141). -/
def State.revertSlot (s : State) (i : Nat) : State :=
  match (s.slot i).state, (s.slot i).handle? with
  | .staging, some h | .ready, some h => (s.freeSlot i).revert h
  | _, _ => s

/-- A place in BUSY-WAIT or RESEND-DUE is released, its slot freed and its entry reverted in place (R141, R162). -/
def State.revertPlace (s : State) (p : Place) : State :=
  match p.state with
  | .awaiting _ => s
  | _ => ((s.releasePlace p.slot).freeSlot p.slot).revert p.handle

/-- The window end in OPEN (R141, R162). -/
def State.closeNight (s : State) : State :=
  let t := { s with
    cju := { s.cju with window := .settling, windowLeft := none }
    odu := s.odu.emptyTokens
    cqp := s.cqp.leaveTurn .staging }
  let t := (List.range t.odu.slots.length).foldl State.revertSlot t
  (s.odu.places.foldl State.revertPlace t).settleNight

/-- The window end in SKIPPED: the night is settled at once (R141). -/
def State.endSkipped (s : State) : State :=
  { s with cju := { s.cju with window := .settling, windowLeft := none } }.settleNight

/-- The window end in OPEN touches the journal: an entry reverts, or the night is settled and its report built. Where every
place awaits its reply, no slot holds an entry to revert and the night is not yet settled, no entry is touched (R141;
assumption 53). -/
def State.endReads (s : State) : Bool :=
  (s.odu.slots.any fun x => decide (x.state = .staging) || decide (x.state = .ready)) ||
    (s.odu.places.any fun p => match p.state with
      | .awaiting _ => false
      | _ => true) ||
    decide (s.odu.places = [] ∧ s.odu.completions = [] ∧ s.cju.report = none)

/-- WINDOW_END: the window end is reached, in every station state but HALTED (R134, R141). -/
def execWindowEnd (ecc : Ecc) (s : State) : Result :=
  if s.cju.windowLeft = some 0 ∧ s.stc.state ≠ .halted then
    match s.cju.window with
    | .opened => withTablesIf s.endReads ecc s s.closeNight
    | .skipped => withTables ecc s s.endSkipped
    | _ => .next s
  else .next s

/-- NIGHT_REPORT: the report of a settled night is handed over once the queue has room; the window becomes CLOSED, N absent,
and NIGHT-END is raised (R142). Where a built report is kept is not said, and R146 names only an entry, a generation link, a
figure and the night number; that the hand-over meets table memory, so that an uncorrectable error there halts the station and
leaves the report not handed over, is the model's choice (assumption 52). -/
def execNightReport (ecc : Ecc) (s : State) : Result :=
  match s.cju.report with
  | none => .next s
  | some r =>
    if s.operates ∧ s.canHand .report then
      withTables ecc s <|
        let t := s.hand .report (.nightReport r)
        { t with cju := { t.cju with window := .closed, nightly := none, report := none } }.raise .nightEnd
    else .next s

/-! ### Inspection (R143) -/

/-- The frozen head. -/
def Cju.headItem (c : Cju) : Item :=
  match c.frozen with
  | [] => .optional false [(4, 0), (4, 0), (1, 0), (1, 0), (1, 0)]
  | e :: _ => .optional true [(4, e.handle), (4, e.tag), (1, e.step.byte), (1, e.attempts), (1, e.nightsFailed)]

/-- The items INSPECT-NIGHT carries (R143). That the births at the open head and tail, always present together, have a presence
bit each is the model's choice, and so is the width of 1 byte of the selector key and mask, which the width table of R196 does not
cover (assumption 13). -/
def State.nightItems (s : State) : List Item :=
  let c := s.cju
  let f := c.figures
  [.fixed 1 c.window.byte, .fixed 4 c.nightNumber, optItem 4 c.nightly, optItem 4 c.secondsLeft,
   .fixed 1 (flagByte f.skipped), .fixed 4 f.carriedOver, .fixed 4 f.frozenTonight, .fixed 4 f.extentsCopied,
   .fixed 4 f.blocksCopied, .fixed 4 f.failures,
   .fixed 4 c.openGen.length, .fixed 4 c.openBlocks, optItem 4 (c.openGen.head?.map OpenEntry.birth),
   optItem 4 (c.openGen.getLast?.map OpenEntry.birth),
   .fixed 4 c.frozen.length, .fixed 4 c.frozenBlocks, .fixed 4 (c.stepCount .waiting), .fixed 4 (c.stepCount .staging),
   .fixed 4 (c.stepCount .ready), .fixed 4 (c.stepCount .inFlight), c.headItem,
   .fixed 1 s.config.selectorKey, .fixed 1 s.config.selectorMask]

/-- INSPECT_NIGHT: the journal and the window, read in one event that changes nothing (R143). -/
def execInspectNight (ecc : Ecc) (s : State) : Result :=
  serveB .inspectNight s fun e => withTables ecc s <| s.settleB e (OutcomeCode.carrying .done s.nightItems)

end Sys2Proof.Machine
end

