-- ==== Sys2Proof/Machine/Offsite.lean ====
section
/-! DEFINITION. Staging and the Offsite Link (chapter 8): COPY_COMPLETION, TAKE_FOR_STAGING, STAGED, STAGE_FAILED,
STAGING_TIMEOUT, HELLO_SEND, IDLE_SEND, COPY_SEND, COPY_SEND_END, READY_FRAME, IDLE_FRAME, ACK, NAK, BAD_FRAME, REPLY_TIMEOUT,
BUSY_WAIT_END, LOSS_OF_SIGNAL, LINK_SILENCE_TIMEOUT, TOKEN_GAIN. -/

namespace Sys2Proof.Machine

/-! ### Staging (R148 to R151) -/

/-- The WAITING entry nearest the head of the frozen generation (R133). -/
def State.nextWaiting (s : State) : Option FrozenEntry := s.cju.frozen.find? fun e => decide (e.step = .waiting)

/-- A slot takes an entry for staging and the STAGE-REQUEST notice is handed over (R148). -/
def State.takeForStaging (s : State) (i : Nat) (e : FrozenEntry) : State :=
  let volume := ((s.extent e.handle).map ExtentRec.volume).getD 0
  let t := (s.withSlot i ⟨.staging, some ⟨e.handle, volume, e.length⟩, some 0, none⟩).stepWrite e.handle .staging
  t.hand .staging (.stageRequest i e.handle volume e.length)

/-- TAKE_FOR_STAGING: the staging condition holds; the lowest-numbered FREE slot takes the WAITING entry nearest the head
(R148). -/
def execTakeForStaging (ecc : Ecc) (s : State) : Result :=
  if s.stagingWanted ∧ s.canHand .staging then
    match s.lowestFreeSlot, s.nextWaiting with
    | some i, some e => withTables ecc s (s.takeForStaging i e)
    | _, _ => .next s
  else .next s

/-- The tests STAGED and STAGE-FAILED share, after that of the station state: the outcome that applies, or the slot's load
(R149, R150). -/
def State.stagingTests (s : State) (slot handle : Nat) : OutcomeCode ⊕ SlotLoad :=
  if 7 < slot ∨ handle = 0 then .inl .badField
  else match (s.slot slot).state, (s.slot slot).load with
    | .staging, some x => if x.handle = handle then .inr x else .inl .badField
    | _, _ => .inl .stale

/-- A slot becomes READY with its check value, last in the ready order, and its entry READY (R149). -/
def State.makeReady (s : State) (slot : Nat) (x : SlotLoad) (check : Word32) : State :=
  let t := (s.withSlot slot ⟨.ready, some x, none, some check⟩).stepWrite x.handle .ready
  { t with odu := { t.odu with readyOrder := t.odu.readyOrder ++ [slot] } }

/-- STAGED: the tests of R149 in order; the check value over the first length × 1,024 words of the slot's data area (R152),
and the slot and its entry READY. -/
def execStaged (slot handle : Nat) (ecc : Ecc) (s : State) : Result :=
  serveB (.staged slot handle) s fun e =>
    match s.stagingTests slot handle with
    | .inl o => .next (s.settleB e (OutcomeCode.bare o))
    | .inr x => withTables ecc s <|
      let check := checkValue (wordsOf (s.slotData slot x.length))
      (s.makeReady slot x check).settleB e
        (OutcomeCode.carrying .done [.fixed 1 slot, .fixed 4 handle, .fixed 4 check.toNat])

/-- STAGE_FAILED: the slot becomes FREE and the entry takes the failure path (R150, R139). -/
def execStageFailed (slot handle : Nat) (ecc : Ecc) (s : State) : Result :=
  serveB (.stageFailed slot handle) s fun e =>
    match s.stagingTests slot handle with
    | .inl o => .next (s.settleB e (OutcomeCode.bare o))
    | .inr _ => withTables ecc s <|
      ((s.freeSlot slot).failurePath handle).settleB e (OutcomeCode.bare .done)

/-- The staging deadline of a slot has passed (R151). -/
def State.stagingLate (s : State) (slot : Nat) : Bool :=
  decide ((s.slot slot).state = .staging) && (s.slot slot).timer.elim false fun t => decide (Config.stagingLimit ≤ t)

/-- STAGING_TIMEOUT: the slot becomes FREE and the entry takes the failure path, in every station state but HALTED (R151,
R139). -/
def execStagingTimeout (slot : Nat) (ecc : Ecc) (s : State) : Result :=
  match (s.slot slot).handle? with
  | none => .next s
  | some h =>
    if s.stc.state ≠ .halted ∧ s.stagingLate slot then withTables ecc s ((s.freeSlot slot).failurePath h) else .next s

/-! ### HELLO and IDLE (R153, R154, R156) -/

/-- The transmitter is free and a second has passed since the station last finished sending. -/
def State.secondDue (s : State) : Bool :=
  s.operates && s.odu.sending.isNone && decide (Config.second ≤ s.odu.sendTimer)

/-- A HELLO or IDLE is put on the link. -/
def State.sendShort (s : State) (f : Frame) : State :=
  { s with odu := { s.odu with lastFrame := some f, sendTimer := 0 } }

/-- HELLO_SEND: in DOWN, at entry to LISTENING, at the loss of the link and then each second (R153, R155). -/
def execHelloSend (s : State) : Result :=
  .next (if s.secondDue ∧ s.odu.linkUp = false then
    s.sendShort (.hello s.stc.stationNumber (s.psi.incarnation.getD 0))
  else s)

/-- IDLE_SEND: in UP, each time a second passes since the station last finished sending a frame (R154). -/
def execIdleSend (s : State) : Result :=
  .next (if s.secondDue ∧ s.odu.linkUp then s.sendShort (.idle s.stc.stationNumber) else s)

/-! ### COPY frames (R156 to R158) -/

/-- The head of the send order: resends in the order they became due, then READY slots in ready order; true for a resend
(R158). -/
def Odu.sendHead (o : Odu) : Option (Nat × Bool) :=
  match o.resends, o.readyOrder with
  | i :: _, _ => some (i, true)
  | [], i :: _ => some (i, false)
  | [], [] => none

/-- The conditions of a COPY send, but for its place and its tokens (R156, R158). R158 names no share, and R165 says that no COPY
is sent while a share of 0 lasts, since it adds nothing; that tokens left in the accumulator are still spent then, in an OPEN
window, is the model's choice (assumption 54). -/
def State.mayCopy (s : State) : Bool :=
  decide (s.stc.state = .active) && s.odu.linkUp && decide (s.cju.window = .opened) && s.odu.sending.isNone &&
    decide (s.odu.sendTimer < Config.second)

/-- The attempt number of the next send (R157). -/
def nextAttempt (n : Nat) : Nat := if n < 65535 then n + 1 else 1

/-- The frame of a COPY send (R158, R201). -/
def State.copyFrame (s : State) (slot attempt : Nat) (x : SlotLoad) (check : Word32) : Frame :=
  let r := s.extent x.handle
  let e := s.frozenEntry x.handle
  .copy s.stc.stationNumber x.handle attempt (s.config.targetMap.getD x.volume 0) x.volume ((r.map ExtentRec.owner).getD 0)
    x.length ((e.map FrozenEntry.birth).getD 0) (r.bind ExtentRec.death) ((e.map FrozenEntry.tag).getD 0) check
    (s.slotData slot x.length)

/-- A COPY send begins (R158). -/
def State.beginCopy (s : State) (slot : Nat) (again : Bool) (x : SlotLoad) (check : Word32) : State :=
  let n := nextAttempt s.odu.attemptNumber
  let o := { s.odu with
    tokens := s.odu.tokens - x.length * 1000
    attemptNumber := n
    sending := some n
    lastFrame := some (s.copyFrame slot n x check) }
  if again then
    { s with odu := { o with
      places := o.places.map fun p => if p.slot = slot then { p with attempt := n, state := .awaiting none } else p
      resends := o.resends.tail } }
  else
    let place : Place := ⟨x.handle, slot, n, .awaiting none⟩
    let t := { s with odu := { o with
      places := o.places ++ [place]
      slots := o.slots.set slot ⟨.inFlight, some x, none, some check⟩
      readyOrder := o.readyOrder.tail } }
    t.stepWrite x.handle .inFlight

/-- COPY_SEND: the frame at the head of the send order is sent, once its tokens suffice and, for a first send, fewer than four
places are taken (R157, R158); an own share of 0 does not hold it back (assumption 54). -/
def execCopySend (ecc : Ecc) (s : State) : Result :=
  match s.odu.sendHead with
  | none => .next s
  | some (slot, again) =>
    match (s.slot slot).load, (s.slot slot).check with
    | some x, some check =>
      if s.mayCopy ∧ (again ∨ s.odu.places.length < Config.placeCapacity) ∧ x.length * 1000 ≤ s.odu.tokens then
        withTables ecc s (s.beginCopy slot again x check)
      else .next s
    | _, _ => .next s

/-- COPY_SEND_END: the last byte of a COPY frame has been sent and its reply timer starts (R158). An IDLE that fell due during the
send is still due after it (R154, R156). -/
def execCopySendEnd (s : State) : Result :=
  .next (match s.odu.sending with
  | none => s
  | some n =>
    let start := fun p : Place => if p.attempt = n ∧ p.state = .awaiting none then { p with state := .awaiting (some 0) } else p
    { s with odu := { s.odu with
      sending := none
      sendTimer := if Config.second ≤ s.odu.sendTimer then s.odu.sendTimer else 0
      places := s.odu.places.map start } })

/-! ### Received frames (R153, R154, R159, R160) -/

/-- The link operates and is UP. -/
def State.hears (s : State) : Bool := s.operates && s.odu.linkUp

/-- A frame received whole in UP restarts the silence timer (R154). -/
def State.heardFrame (s : State) : State := { s with odu := { s.odu with silenceTimer := 0 } }

/-- The link goes UP (R153, R164). -/
def State.linkRises (s : State) : State :=
  let t := { s with odu := { s.odu with linkUp := true, silenceTimer := 0 } }.raise .linkUp
  if s.cju.window = .opened then t.computeShare else t

/-- READY_FRAME: in DOWN the link goes UP; in UP the silence timer restarts; outside the operating states the frame is
discarded (R153, R154). That the rise touches table memory only where it forms the own demand from the journal, with the window
OPEN and not in MUTE, is the model's reading (assumption 53). -/
def execReadyFrame (ecc : Ecc) (s : State) : Result :=
  if s.operates then
    (if s.odu.linkUp then .next s.heardFrame
    else withTablesIf s.linkRises.demandReads ecc s s.linkRises)
  else .next s

/-- IDLE_FRAME: in UP the silence timer restarts (R154). -/
def execIdleFrame (s : State) : Result := .next (if s.hears then s.heardFrame else s)

/-- BAD_FRAME: the frame is discarded and restarts no timer (R154, R201). -/
def execBadFrame (s : State) : Result := .next s

/-- A frame has settled with success: its place is released, and the copy completion is taken, or waits for reclaim batch room
(R159, R45). -/
def State.settleSuccess (s : State) (p : Place) : State :=
  let t := s.releasePlace p.slot
  if t.completionWaits p.handle then { t with odu := { t.odu with completions := t.odu.completions ++ [p.slot] } }
  else t.completeCopy p.slot p.handle

/-- ACK: a reply that matches settles its frame with success, or gives a counted failure where its check value differs (R159,
R161, R162). -/
def execAck (handle attempt : Nat) (check : Word32) (ecc : Ecc) (s : State) : Result :=
  if s.hears then
    let t := s.heardFrame
    match t.matching handle attempt with
    | none => .next t
    | some p =>
      withTables ecc t (if (t.slot p.slot).check = some check then t.settleSuccess p else t.countedFailure p)
  else .next s

/-- The reason number of BUSY (R201). -/
def busyReason : Nat := 1

/-- NAK: a reply that matches sets its place BUSY-WAIT for BUSY while the window is open, reverts it for BUSY outside the window,
and gives a counted failure for any other reason (R160, R161, R162). -/
def execNak (handle attempt reason : Nat) (ecc : Ecc) (s : State) : Result :=
  if s.hears then
    let t := s.heardFrame
    match t.matching handle attempt with
    | none => .next t
    | some p =>
      if reason = busyReason ∧ t.cju.window = .opened then .next (t.movePlace p.slot (.busyWait 0))
      else withTables ecc t (t.countedFailure p)
  else .next s

/-- REPLY_TIMEOUT: the reply timer of a slot's place has reached 2 s, a counted failure (R161, R162). -/
def execReplyTimeout (slot : Nat) (ecc : Ecc) (s : State) : Result :=
  match s.placeOf slot with
  | none => .next s
  | some p =>
    match p.state with
    | .awaiting (some t) =>
      if s.operates ∧ Config.replyLimit ≤ t then withTables ecc s (s.countedFailure p) else .next s
    | _ => .next s

/-- BUSY_WAIT_END: 1 s after a BUSY refusal the place becomes RESEND-DUE and joins the end of the resends (R160, R158). -/
def execBusyWaitEnd (slot : Nat) (s : State) : Result :=
  .next (match (s.placeOf slot).map Place.state with
  | some (.busyWait t) =>
    if s.operates ∧ Config.second ≤ t then
      let u := s.movePlace slot .resendDue
      { u with odu := { u.odu with resends := u.odu.resends ++ [slot] } }
    else s
  | _ => s)

/-- COPY_COMPLETION: the oldest copy completion that waits for reclaim batch room and now has it is taken whole (R45, R138). -/
def execCopyCompletion (ecc : Ecc) (s : State) : Result :=
  let ready := fun i => match (s.slot i).handle? with
    | none => false
    | some h => !s.completionWaits h
  match s.odu.completions.find? ready with
  | none => .next s
  | some i =>
    if s.operates = false then .next s
    else
      let t := { s with odu := { s.odu with completions := s.odu.completions.filter fun x => decide (x ≠ i) } }
      withTables ecc s (t.completeCopy i (((s.slot i).handle?).getD 0))

/-! ### The loss of the link (R155) and the tokens (R165) -/

/-- The loss of the link touches the journal: entries return to its head, or the night is settled and its report built. With no
place outstanding and no night to settle no entry is read, and the link goes DOWN whatever table memory answers, the model's
reading (assumption 53). -/
def State.lossReads (s : State) : Bool :=
  decide (s.odu.places ≠ []) || decide (s.cju.window = .settling ∧ s.cju.report = none ∧ s.odu.completions = [])

/-- The loss of the link as table memory answers it (R155). -/
def State.loseLink (s : State) (ecc : Ecc) : Result := withTablesIf s.lossReads ecc s s.linkDown

/-- LOSS_OF_SIGNAL: in UP the link goes DOWN; in DOWN nothing changes (R153, R155). Whether a loss with no place outstanding meets
table memory is settled in `State.lossReads` (assumption 53). -/
def execLossOfSignal (ecc : Ecc) (s : State) : Result := if s.hears then s.loseLink ecc else .next s

/-- LINK_SILENCE_TIMEOUT: the silence timer has reached 10 s in UP, and the link goes DOWN (R155). Whether a loss with no place
outstanding meets table memory is settled in `State.lossReads` (assumption 53). -/
def execLinkSilenceTimeout (ecc : Ecc) (s : State) : Result :=
  if s.hears ∧ Config.linkSilenceLimit ≤ s.odu.silenceTimer then s.loseLink ecc else .next s

/-- The accumulator gains the own share in thousandths, stopping at the bucket depth (R165). -/
def Odu.gain (o : Odu) : Odu := { o with tokens := min (bucketDepth o.ownShare * 1000) (o.tokens + o.ownShare), tokenTimer := 0 }

/-- TOKEN_GAIN: a millisecond of running time has passed, in every station state but HALTED (R165, R167). -/
def execTokenGain (s : State) : Result :=
  .next (if s.stc.state ≠ .halted ∧ Config.millisecond ≤ s.odu.tokenTimer then { s with odu := s.odu.gain } else s)

end Sys2Proof.Machine
end

