-- ==== Sys2Proof/Machine/Port.lean ====
section
/-! DEFINITION. The window, the rings, the Response Ring and attention (chapter 9): QUEUE_BASE, NOTIFY_U, NOTIFY_B,
ATTENTION_RELEASE, UNMAPPED_WRITE, STAGING_WINDOW_WRITE, PRODUCER_INDEX_READ, COMMAND_FETCH, RESPONSE_WRITE,
RESPONSE_ROOM_POLL, ATTENTION_POST. -/

namespace Sys2Proof.Machine

/-! ### The queue block in host memory (R198) -/

/-- The offsets of a ring's producer index, which the host writes, and of its consumer index. -/
def producerOffset : Ring → Nat
  | .u => 0x40
  | .b => 0x48

def consumerOffset : Ring → Nat
  | .u => 0x44
  | .b => 0x4C

/-- The offsets of the Response Ring's producer index and of its consumer index, which the host writes. -/
def responseProducerOffset : Nat := 0x50

def responseConsumerOffset : Nat := 0x54

/-- The offsets of the rings themselves. -/
def commandRingOffset : Ring → Nat
  | .u => 0x1000
  | .b => 0x5000

def responseRingOffset : Nat := 0x9000

/-- A command entry holds 64 bytes. -/
def commandBytes : Nat := 64

/-- The station writes bytes by DMA at an offset of the queue block. -/
def State.writeBlock (s : State) (offset : Nat) (data : List Byte) : State :=
  { s with host := memWriteBytes s.host (s.cqp.base.getD 0 + offset) data }

/-- A 32-bit index of the queue block, as host memory holds it. -/
def State.blockIndex (s : State) (m : Mem) (offset : Nat) : IndexRead :=
  .value (leValue (memReadBytes m (s.cqp.base.getD 0 + offset) 4))

/-- The step that ends the read of a ring's producer index from host memory (R170, R198). -/
def State.producerStep (s : State) (m : Mem) (r : Ring) : Instr := .producerIndexRead r (s.blockIndex m (producerOffset r))

/-- The step that fetches the entry at a ring's fetch position from host memory (R171, R198). -/
def State.fetchStep (s : State) (m : Mem) (r : Ring) : Instr :=
  .commandFetch (.bytes (memReadBytes m
    (s.cqp.base.getD 0 + commandRingOffset r + commandBytes * (s.cqp.ring r).fetch) commandBytes))

/-- The consumer index that a RESPONSE_WRITE or RESPONSE_ROOM_POLL reads from host memory (R174, R198). -/
def State.consumerRead (s : State) (m : Mem) : IndexRead := s.blockIndex m responseConsumerOffset

/-- A DMA access to the queue block failed, or an index was out of range (R180). -/
def State.ringFault (s : State) : State := s.enterHalted .ring

/-! ### Window writes -/

/-- The ring positions a QUEUE-BASE write sets; a read of the earlier block's index under way is dropped (R169; assumption
14). -/
def RingState.restart (x : RingState) : RingState := { x with fetch := 0, known := 0, notify := false, reading := false }

/-- QUEUE_BASE: in STOPPED, with no Ring B command in progress, the base is set, 4 KiB-aligned, CQP's positions return to 0
and the station's three indices in the block are written as 0 (R168, R169, R172, R198). -/
def execQueueBase (value : Nat) (dma : DmaWrite) (s : State) : Result :=
  if s.stc.state = .stopped ∧ s.cqp.ringB.inProgress = [] then
    let t := { s with cqp := { s.cqp with
      base := some (value / 4096 * 4096)
      ringU := s.cqp.ringU.restart
      ringB := s.cqp.ringB.restart
      write := 0
      lastConsumer := 0
      consecutiveU := 0
      noticeCount := 0
      pollTimer := 0
      roomWait := false } }
    match dma with
    | .failed => .next t.ringFault
    | .done =>
      .next (((t.writeBlock (consumerOffset .u) (leBytes 4 0)).writeBlock (consumerOffset .b) (leBytes 4 0)).writeBlock
        responseProducerOffset (leBytes 4 0))
  else .next s

/-- The Response Ring is full by the consumer index last read (R169, R171). -/
def State.responseFull (s : State) : Bool :=
  decide ((s.cqp.write + 1) % Config.responseRingSize = s.cqp.lastConsumer)

/-- A full Response Ring's consumer index is to be read again now (R174; assumption 14). -/
def State.pollNow (s : State) : State :=
  { s with cqp := { s.cqp with pollTimer := if s.responseFull then Config.roomPoll else s.cqp.pollTimer } }

/-- NOTIFY_U: in REBUILD, LISTENING, ACTIVE and MUTE with a base set (R168, R170). -/
def execNotifyU (s : State) : Result :=
  .next (if s.stc.state.fetches .u ∧ s.cqp.base.isSome then (s.notifyRing .u).pollNow else s)

/-- NOTIFY_B: as NOTIFY_U, and in STOPPED too (R168, R170). -/
def execNotifyB (s : State) : Result :=
  .next (if s.stc.state.fetches .b ∧ s.cqp.base.isSome then (s.notifyRing .b).pollNow else s)

/-- ATTENTION_RELEASE: a POSTED record is released and INT_N deasserted; what is pending may then be posted (R168, R178). -/
def execAttentionRelease (s : State) : Result :=
  .next (if s.cqp.posted then { s with cqp := { s.cqp with posted := false } }.pollNow else s)

/-- UNMAPPED_WRITE: a write to a location with no behaviour of its own is ignored (R168). -/
def execUnmappedWrite (s : State) : Result := .next s

/-- STAGING_WINDOW_WRITE: bytes land in the slot data areas at once, in every state (R147, R168). -/
def execStagingWindowWrite (offset : Nat) (data : List Byte) (s : State) : Result :=
  if offset + data.length ≤ Config.stagingBytes then .next { s with staging := memWriteBytes s.staging offset data }
  else .fault .outsideStagingWindow

/-! ### Fetching -/

/-- PRODUCER_INDEX_READ: the read under way of a ring's producer index ends. A value of 0 to 255 becomes the known index and
a pending notify begins a further read; anything else is a ring structure fault (R170, R180). -/
def execProducerIndexRead (ring : Ring) (read : IndexRead) (s : State) : Result :=
  let x := s.cqp.ring ring
  if s.stc.state.fetches ring ∧ s.cqp.base.isSome ∧ x.reading then
    match read with
    | .failed => .next s.ringFault
    | .value v =>
      if v < Config.commandRingSize then
        .next { s with cqp := s.cqp.withRing ring { x with known := v, reading := false }.kick }
      else .next s.ringFault
  else .next s

/-- A ring has work (R170). -/
def RingState.hasWork (x : RingState) : Bool := decide (x.known ≠ x.fetch)

/-- Commands a ring keeps in progress (R171). -/
def ringDepth : Ring → Nat
  | .u => Config.ringUDepth
  | .b => Config.ringBDepth

/-- A fetch is possible from a ring, but for the arbiter (R171). -/
def State.canFetch (s : State) (r : Ring) : Bool :=
  let x := s.cqp.ring r
  s.cqp.base.isSome && s.stc.state.fetches r && x.hasWork && decide (x.inProgress.length < ringDepth r) && !s.responseFull

/-- The ring the command arbiter gives the next fetch to (R172). -/
def State.arbiter (s : State) : Option Ring :=
  if s.canFetch .u then
    if s.canFetch .b && decide (8 ≤ s.cqp.consecutiveU) then some .b else some .u
  else if s.canFetch .b then some .b
  else none

/-- The consecutive-U count after a fetch (R172). -/
def State.countFetch (s : State) : Ring → Nat
  | .u => if s.cqp.ringB.hasWork then min 8 (s.cqp.consecutiveU + 1) else 0
  | .b => 0

/-- The entry of a ring as it joins the in-progress list: an unknown kind or a wrong ring completes ILLEGAL, a state that does
not accept the kind NOT-NOW, and any other command is handed to its unit (R173). -/
def precheck (st : StationState) (ring : Ring) (position : Nat) (entry : List Byte) : InProgress :=
  let blank : InProgress := ⟨fieldAt entry 0 1, position, fieldAt entry 4 4, none, .untaken⟩
  match commandOfEntry entry with
  | none => { blank with phase := .settled (completionOf ring blank (OutcomeCode.bare .illegal)) }
  | some c =>
    if ringOf c ≠ ring then { blank with phase := .settled (completionOf ring blank (OutcomeCode.bare .illegal)) }
    else if acceptedIn c st then { blank with command := some c }
    else { blank with phase := .settled (completionOf ring blank (OutcomeCode.bare .notNow)) }

/-- COMMAND_FETCH: the entry at the fetch position of the arbiter's ring is read, the position and the consumer index
advance, and the command joins the in-progress list; a failed DMA is a ring structure fault (R171, R172, R173, R180). -/
def execCommandFetch (read : EntryRead) (s : State) : Result :=
  match s.arbiter with
  | none => .next s
  | some r =>
    match read with
    | .failed => .next s.ringFault
    | .bytes entry =>
      let x := s.cqp.ring r
      let next := (x.fetch + 1) % Config.commandRingSize
      let y := { x with fetch := next, inProgress := x.inProgress ++ [precheck s.stc.state r x.fetch entry] }
      let t := { s with cqp := { s.cqp.withRing r y with consecutiveU := s.countFetch r } }
      .next (t.writeBlock (consumerOffset r) (leBytes 4 next))

/-! ### Writing responses -/

/-- The completion a ring has ready: that of the command at the head of its list, once settled (R174). -/
def RingState.ready (x : RingState) : Option Completion :=
  match x.inProgress with
  | [] => none
  | e :: _ => match e.phase with
    | .settled c => some c
    | _ => none

/-- The bytes of the entry a source has ready (R174, R175, R198). -/
def State.sourceEntry (s : State) : Source → Option (List Byte)
  | .ringU => s.cqp.ringU.ready.map Completion.bytes
  | .ringB => s.cqp.ringB.ready.map Completion.bytes
  | .notices => s.cqp.notices.head?.map fun n => n.bytes (s.cqp.noticeCount + 1)

/-- The rotation from a source on (R175). -/
def Source.order : Source → List Source
  | .ringU => [.ringU, .ringB, .notices]
  | .ringB => [.ringB, .notices, .ringU]
  | .notices => [.notices, .ringU, .ringB]

def Source.successor : Source → Source
  | .ringU => .ringB
  | .ringB => .notices
  | .notices => .ringU

/-- The source the writer serves next, with its entry (R175). -/
def State.nextSource (s : State) : Option (Source × List Byte) :=
  s.cqp.rotation.order.findSome? fun x => (s.sourceEntry x).map fun b => (x, b)

/-- The entry of a source has been written and leaves it (R171, R176, R198). -/
def Cqp.serve (c : Cqp) : Source → Cqp
  | .ringU => { c with ringU := { c.ringU with inProgress := c.ringU.inProgress.tail } }
  | .ringB => { c with ringB := { c.ringB with inProgress := c.ringB.inProgress.tail } }
  | .notices => { c with notices := c.notices.tail, noticeCount := c.noticeCount + 1 }

/-- One entry is written at the write position, and then the new producer index; RESPONSES is raised when the ring was empty
(R174). -/
def State.writeEntry (s : State) (src : Source) (entry : List Byte) : State :=
  let w := s.cqp.write
  let next := (w + 1) % Config.responseRingSize
  let t := (s.writeBlock (responseRingOffset + responseBytes * w) entry).writeBlock responseProducerOffset (leBytes 4 next)
  let t := { t with cqp := { t.cqp.serve src with write := next, rotation := src.successor } }
  if s.cqp.lastConsumer = w then t.raise .responses else t

/-- CQP reads the Response Ring consumer index and, when there is room, writes the entry that is next (R174, R175, R180).
That the 100 µs of the next look are counted from this read, whatever made it due, and that a value of 512 or more, whose read is a
fault, is not kept as the index last read, are the model's choices (assumption 14). -/
def State.respond (s : State) (consumer : IndexRead) (dma : DmaWrite) : State :=
  match consumer with
  | .failed => s.ringFault
  | .value v =>
    if v < Config.responseRingSize then
      let full := decide ((s.cqp.write + 1) % Config.responseRingSize = v)
      let t := { s with cqp := { s.cqp with lastConsumer := v, pollTimer := 0, roomWait := full } }
      if full then t
      else match t.nextSource with
        | none => t
        | some (src, entry) => match dma with
          | .failed => t.ringFault
          | .done => t.writeEntry src entry
    else s.ringFault

/-- Responses are written in every state in which a ring is fetched, once a base is set (R171, R180). -/
def State.responds (s : State) : Bool := s.stc.state.fetches .b && s.cqp.base.isSome

/-- RESPONSE_WRITE: an entry is ready, and no read has found the ring full since room was last seen; the consumer index is read
before the write, also where the index last read leaves no room (R174). -/
def execResponseWrite (consumer : IndexRead) (dma : DmaWrite) (s : State) : Result :=
  .next (if s.responds ∧ s.cqp.roomWait = false ∧ s.nextSource.isSome then s.respond consumer dma else s)

/-- RESPONSE_ROOM_POLL: the ring is full by the index last read, and 100 µs or a window write have made a further read due
(R174). -/
def execResponseRoomPoll (consumer : IndexRead) (dma : DmaWrite) (s : State) : Result :=
  .next (if s.responds ∧ s.responseFull ∧ Config.roomPoll ≤ s.cqp.pollTimer then s.respond consumer dma else s)

/-! ### Attention -/

/-- ATTENTION_POST: with attention IDLE, a base set and causes pending, the record is written, the pending set emptied and
INT_N asserted. When the DMA write fails the record becomes POSTED and INT_N asserted all the same, and the pending set stays
(R178, R199). That such a posting counts in the record number is the model's choice (assumption 38). -/
def execAttentionPost (dma : DmaWrite) (s : State) : Result :=
  if s.cqp.posted = false ∧ s.cqp.base.isSome ∧ s.cqp.causes ≠ 0 then
    let n := s.cqp.recordNumber + 1
    let t := { s with cqp := { s.cqp with posted := true, recordNumber := n } }
    match dma with
    | .done => .next { t.writeBlock 0 (s.attentionRecord n) with cqp := { t.cqp with causes := 0 } }
    | .failed => .next t
  else .next s

end Sys2Proof.Machine
end

