-- ==== Sys2Proof/Machine/Quota.lean ====
section
/-! DEFINITION. The commands on owner and class records and the loads of REBUILD (chapters 1, 2 and 3): LOAD_OWNER,
LOAD_SNAPSHOT, LOAD_EXTENT, SET_LIMITS, SET_OWNER_CLASS, SET_CLASS, INSPECT_OWNER. -/

namespace Sys2Proof.Machine

/-- A limit is absent or lies in 1 to 4,294,967,294 (R9). -/
def limitInRange : Option Nat → Bool
  | none => true
  | some l => decide (1 ≤ l) && decide (l ≤ Config.limitCeiling)

/-- A pair of limits that may be set (R9, R10, R23). -/
def limitsValid (soft hard : Option Nat) : Bool :=
  limitInRange soft && limitInRange hard &&
    match soft, hard with
    | some a, some b => decide (a ≤ b)
    | _, _ => true

/-- LOAD_OWNER: in REBUILD, the class, the limits and the grace state of one record are replaced (R23). A grace expiry above the
65,790 of its range is no BAD-FIELD case and is stored as it stands, the model's choice (assumption 42). -/
def execLoadOwner (owner cls : Nat) (soft hard grace : Option Nat) (ecc : Ecc) (s : State) : Result :=
  serveB (.loadOwner owner cls soft hard grace) s fun e =>
    if 15 < cls ∨ limitsValid soft hard = false ∨ (grace.isSome ∧ soft = none) then
      .next (s.settleB e (OutcomeCode.bare .badField))
    else withTables ecc s <|
      (s.access owner fun r => { r with
        cls := cls
        soft := soft
        hard := hard
        pendingLimits := none
        grace := grace.elim .none .running }).settleB e (OutcomeCode.bare .done)

/-- LOAD_SNAPSHOT: in REBUILD, one record of origin LOADED at its epoch's position, K following (R70, R54). -/
def execLoadSnapshot (epoch day second retention group : Nat) (ecc : Ecc) (s : State) : Result :=
  serveB (.loadSnapshot epoch day second retention group) s fun e =>
    if epoch = 0 ∨ Config.daySeconds ≤ second ∨ retention = 0 ∨ 3650 < retention ∨ 7 < group then
      .next (s.settleB e (OutcomeCode.bare .badField))
    else withTables ecc s <|
      if (s.snapshot epoch).isSome then s.settleB e (OutcomeCode.bare .duplicate)
      else if s.catalogueFull then s.settleB e (OutcomeCode.bare .catalogueFull)
      else
        let r : SnapRec := ⟨epoch, day, second, .loaded, retention, day + retention, group, 0, false⟩
        { s with scu := { s.scu with
          catalogue := placeSnapshot r s.scu.catalogue
          current := max s.scu.current epoch } }.settleB e (OutcomeCode.bare .done)

/-- The birth at the tail of the open generation (R47). -/
def State.tailBirth (s : State) : Option Nat := s.cju.openGen.getLast?.map OpenEntry.birth

/-- The fields of a LOAD-EXTENT that are refused BAD-FIELD whatever the tables hold (R47). -/
def badLoad (handle volume length : Nat) (state : Option ExtentState) (birth : Nat) (death : Option Nat)
    (copy : Option CopyState) : Bool :=
  decide (handle = 0) || decide (length = 0) || decide (256 < length) || decide (15 < volume) ||
    decide (state ≠ some .live ∧ state ≠ some .held) || copy.isNone ||
    decide (state = some .held ∧ death = none) || decide (state = some .live ∧ death ≠ none) ||
    death.elim false (fun d => decide (d ≤ birth))

/-- A PENDING extent whose birth lies below that at the tail of the open generation (R47). -/
def State.belowTail (s : State) (birth : Nat) (copy : Option CopyState) : Bool :=
  decide (copy = some .awaiting) && s.tailBirth.elim false fun b => decide (birth < b)

/-- One extent record as loaded, with its totals, its place in the Held List and its journal entry (R47). -/
def State.loadRecord (s : State) (handle owner volume length : Nat) (held : Bool) (birth : Nat) (death : Option Nat)
    (copy : CopyState) : State :=
  let r : ExtentRec := ⟨owner, volume, length, if held then .held else .live, some birth, death, some copy, false, none⟩
  let t := s.withExtent handle r
  let t := t.access owner fun o => if held then o.addHeld length else o.addLive length
  let t := if held then { t with xtu := { t.xtu with heldList := t.xtu.heldList ++ [handle] } } else t
  let t := { t with scu := { t.scu with loadedMax := max t.scu.loadedMax (max birth (death.getD 0)) } }
  t.journal copy handle length birth

/-- LOAD_EXTENT: the tests of R47 in order, then one extent record. -/
def execLoadExtent (handle owner volume length : Nat) (state : Option ExtentState) (birth : Nat) (death : Option Nat)
    (copy : Option CopyState) (ecc : Ecc) (s : State) : Result :=
  serveB (.loadExtent handle owner volume length state birth death copy) s fun e =>
    if badLoad handle volume length state birth death copy then .next (s.settleB e (OutcomeCode.bare .badField))
    else withTables ecc s <|
      if s.belowTail birth copy then s.settleB e (OutcomeCode.bare .badField)
      else if (s.extent handle).isSome then s.settleB e (OutcomeCode.bare .duplicate)
      else if Config.extentCapacity ≤ s.xtu.extents.length then s.settleB e (OutcomeCode.bare .tableFull)
      else (s.loadRecord handle owner volume length (decide (state = some .held)) birth death (copy.getD .exempt)).settleB e
        (OutcomeCode.bare .done)

/-- SET_LIMITS: NOW replaces the limits and discards a pending pair; ROLLOVER stores the pair for the next day (R10, R11). -/
def execSetLimits (owner : Nat) (soft hard : Option Nat) (effect : Option LimitsWhen) (ecc : Ecc) (s : State) : Result :=
  serveB (.setLimits owner soft hard effect) s fun e =>
    if limitsValid soft hard = false then .next (s.settleB e (OutcomeCode.bare .badField))
    else match effect with
      | none => .next (s.settleB e (OutcomeCode.bare .badField))
      | some .now => withTables ecc s <|
        (s.access owner fun r => { r with soft := soft, hard := hard, pendingLimits := none }).settleB e
          (OutcomeCode.bare .done)
      | some .rollover => withTables ecc s <|
        (s.access owner fun r => { r with pendingLimits := some ⟨soft, hard, s.today + 1⟩ }).settleB e
          (OutcomeCode.bare .done)

/-- SET_OWNER_CLASS: the class is replaced in one access, which reports a changed C (R5). -/
def execSetOwnerClass (owner cls : Nat) (ecc : Ecc) (s : State) : Result :=
  serveB (.setOwnerClass owner cls) s fun e =>
    if 15 < cls then .next (s.settleB e (OutcomeCode.bare .badField))
    else withTables ecc s <| (s.access owner fun r => { r with cls := cls }).settleB e (OutcomeCode.bare .done)

/-- SET_CLASS: the three fields of a class record are replaced together (R4). -/
def execSetClass (cls graceDays weight : Nat) (policy : Option Policy) (s : State) : Result :=
  serveB (.setClass cls graceDays weight policy) s fun e =>
    match policy with
    | none => .next (s.settleB e (OutcomeCode.bare .badField))
    | some p =>
      if 15 < cls ∨ 16 < weight then .next (s.settleB e (OutcomeCode.bare .badField))
      else .next ({ s with qsu := { s.qsu with classes := s.qsu.classes.set cls ⟨graceDays, weight, p⟩ } }.settleB e
        (OutcomeCode.bare .done))

/-- Grace as INSPECT-OWNER reports it: NONE, RUNNING or EXPIRED, with its expiry day (R24, R196). -/
def graceItems (g : Grace) (today : Nat) : List Item :=
  match g with
  | .none => [.fixed 1 1, .fixed 4 0]
  | .running d => [.fixed 1 (if d ≤ today then 3 else 2), .fixed 4 d]

/-- The items INSPECT-OWNER carries (R24). That the pending soft limit, hard limit and apply day have a presence bit each is the
model's choice (assumption 13). -/
def State.ownerItems (s : State) (o : Nat) (r : OwnerRec) : List Item :=
  let w := (s.classRec r.cls).weight
  [.fixed 2 o, .fixed 1 r.cls, optItem 4 r.soft, optItem 4 r.hard, optItem 4 (r.pendingLimits.bind PendingLimits.soft),
   optItem 4 (r.pendingLimits.bind PendingLimits.hard), optItem 4 (r.pendingLimits.map PendingLimits.applyDay),
   .fixed 4 r.live, .fixed 4 r.reserved, .fixed 4 r.held, .fixed 1 w, .fixed 4 (weightedHeld r.held w),
   .fixed 4 (s.chargeable r), .fixed 8 r.peerSum, .fixed 4 (s.standing r)] ++ graceItems r.grace s.today ++
  [.fixed 4 r.lastAnnounced, .fixed 1 (flagByte r.dirty), .fixed 1 r.contributions.length,
   .fixed 1 (flagByte s.provisional)]

/-- INSPECT_OWNER: an access that reports the record as the opening steps leave it (R24). -/
def execInspectOwner (owner : Nat) (ecc : Ecc) (s : State) : Result :=
  serveB (.inspectOwner owner) s fun e => withTables ecc s <|
    let t := s.access owner id
    t.settleB e (OutcomeCode.carrying .done (t.ownerItems owner (t.owner owner)))

end Sys2Proof.Machine
end

