-- ==== Sys2Proof/Machine/Resets.lean ====
section
/-! DEFINITION. The resets and the configuration load (sections 10.1 and 10.2): POWER_ON, RESET_N, RESET_N_LOW,
STATION_RESET, CONFIGURATION_READ. -/

namespace Sys2Proof.Machine

/-- What every reset but power-on leaves: on-chip state at its reset values; table memory, the marker and host memory as
they were (R183, R25, R49, R72, R90, R111, R128, R144, R166, R181). -/
def State.afterReset (s : State) (cause : ResetCause) (station : Nat) (low : Bool) : State :=
  { State.reset with
    stc := { Stc.reset with stationNumber := station, resetCause := cause, resetHeld := low, marker := s.stc.marker }
    qsu := { Qsu.reset with owners := s.qsu.owners }
    xtu := { Xtu.reset with extents := s.xtu.extents, heldList := s.xtu.heldList }
    scu := { Scu.reset with
      catalogue := s.scu.catalogue
      current := s.scu.current
      protectedSet := s.scu.protectedSet }
    uvu := { Uvu.reset with poolInUse := s.uvu.poolInUse }
    cju := { Cju.reset with openGen := s.cju.openGen, frozen := s.cju.frozen, nightNumber := s.cju.nightNumber }
    staging := s.staging
    host := s.host
    pending := s.pending }

/-- POWER_ON: no defined content in table memory, which the model takes as empty; the marker cleared; the straps latched;
LOADING entered (R183, R194; assumption 2). Host memory is not the part's and is not written (R181). That RESET_N counts as high
after a power-on, also one taken while the pin was held low, is the model's choice (assumption 50). -/
def execPowerOn (straps : Nat) (s : State) : Result :=
  .next { State.reset with
    stc := { Stc.reset with stationNumber := straps % Config.stationCount }
    host := s.host
    pending := s.pending }

/-- RESET_N returns high: the pin reset is taken and the straps are latched (R182, R183). -/
def execResetN (straps : Nat) (s : State) : Result :=
  .next (s.afterReset .pin (straps % Config.stationCount) false)

/-- RESET_N is driven low: the station stays in reset, every unit stopped, until the pin returns high (R183). The straps and
the cause are latched only then. -/
def execResetNLow (s : State) : Result :=
  .next (s.afterReset s.stc.resetCause s.stc.stationNumber true)

/-- A write to STATION-RESET: 1 resets the station in any state; any other value is ignored (R168, R183). While RESET_N is
held low the station is in reset already. -/
def execStationReset (value straps : Nat) (s : State) : Result :=
  .next (if value = 1 ∧ s.stc.resetHeld = false then s.afterReset .station (straps % Config.stationCount) false else s)

/-- The load ends: the image becomes readable and the station enters STOPPED (R185). -/
def State.endLoad (s : State) (image : ConfigImage) (defaulted : Bool) : State :=
  let t := { s with stc := { s.stc with state := .stopped, config := some image, configDefaulted := defaulted } }
  if defaulted then t.raise .configDefaulted else t

/-- A read that ends in mismatch: the 16th takes the built-in defaults, an earlier one starts the next read (R185). -/
def State.mismatch (s : State) : State :=
  let t := { s with stc := { s.stc with reads := s.stc.reads + 1 } }
  if Config.maxConfigReads ≤ t.stc.reads then t.endLoad .defaults true else t

/-- CONFIGURATION_READ: in LOADING, one read of the EEPROM ends valid, in mismatch, or with no device (R184, R185). -/
def execConfigurationRead (read : EepromRead) (s : State) : Result :=
  if s.stc.state = .loading ∧ s.stc.resetHeld = false then
    match read with
    | .image data => .next (if imageValid data then s.endLoad (imageOf data) false else s.mismatch)
    | .stopped => .next s.mismatch
    | .noDevice => .next (s.endLoad .defaults true)
  else .next s

end Sys2Proof.Machine
end

