-- ==== Sys2Proof/Machine/Restores.lean ====
section
/-! DEFINITION. Restore contexts (chapter 4): RESTORE_OPEN, RESTORE_ITEM, RESTORE_ITEM_ADMISSION, RESTORE_COMMIT,
RESTORE_ABORT, IDLE_EXPIRY. -/

namespace Sys2Proof.Machine

/-- A context by id. -/
def State.context (s : State) (i : Nat) : Context := s.rcu.contexts.getD i .free

def State.withContext (s : State) (i : Nat) (c : Context) : State :=
  { s with rcu := { s.rcu with contexts := s.rcu.contexts.set i c } }

/-- RCU has a piece of work in hand: an end of a context, or an item that awaits its decision (R76). -/
def State.rcuBusy (s : State) : Bool :=
  s.rcu.work.isSome || s.xtu.claims.any fun x => decide (x.claimant = .item)

/-- The idle deadline of a context has passed (R87). -/
def State.deadlinePassed (s : State) (i : Nat) : Bool :=
  let c := s.context i
  decide (c.state ≠ .free) && c.idle.elim false fun t => decide (s.config.idleTimeout * Config.second ≤ t)

/-- RCU takes no restore command: it has a piece of work in hand, or an idle expiry, which is its next (R76, R87). -/
def State.rcuWaits (s : State) : Bool := s.rcuBusy || (List.range s.rcu.contexts.length).any s.deadlinePassed

/-- A command reaches a context: OPEN or LIMITED, with its tag (R77). -/
def State.reaches (s : State) (i tag : Nat) : Bool :=
  decide (i < s.rcu.contexts.length) && decide ((s.context i).state ≠ .free) && decide ((s.context i).tag = some tag)

/-- The idle deadline is restarted (R77). -/
def State.restartDeadline (s : State) (i : Nat) : State := s.withContext i { s.context i with idle := some 0 }

/-- The length an extent record gives, 0 where there is no record. -/
def State.extentLength (s : State) (h : Nat) : Nat := ((s.extent h).map ExtentRec.length).getD 0

/-- The reserved blocks of a context (R75). -/
def State.contextBlocks (s : State) (i : Nat) : Nat := ((s.context i).items.map s.extentLength).sum

/-- RESTORE_OPEN: the tests of R78 in order; the lowest-numbered FREE context becomes OPEN and pins its record (R68, R78). -/
def execRestoreOpen (epoch owner : Nat) (override : Option Bool) (tag : Nat) (ecc : Ecc) (s : State) : Result :=
  serveB (.restoreOpen epoch owner override tag) s fun e =>
    if s.rcuWaits then .next s
    else match override with
      | none => .next (s.settleB e (OutcomeCode.bare .badField))
      | some o => withTables ecc s <|
        match s.snapshot epoch, s.rcu.contexts.findIdx? fun c => decide (c.state = .free) with
        | none, _ => s.settleB e (OutcomeCode.bare .noSnapshot)
        | some _, none => s.settleB e (OutcomeCode.bare .contextFull)
        | some r, some i =>
          (s.withContext i ⟨.opened, some epoch, some owner, o, some tag, [], some 0⟩).settleB e
            (OutcomeCode.carrying .done [.fixed 1 i, .fixed 4 tag, .fixed 4 epoch, .fixed 1 (dueByte r.due)])

/-- The source of an item: its record, when it is visible in the context's epoch (R79). -/
def State.visibleSource (s : State) (source : Nat) (c : Context) : Option ExtentRec :=
  match s.extent source with
  | none => none
  | some r => if r.visible (c.epoch.getD 0) then some r else none

/-- RESTORE_ITEM: the tests of R79 in order, the deadline restarted once the context is reached (R77); an item that passes
claims its new handle and a place until its decision (R80). That the restart is dropped where a test meets an uncorrectable error,
the event writing nothing (R195), is the model's choice (assumption 6). -/
def execRestoreItem (context tag source handle volume : Nat) (ecc : Ecc) (s : State) : Result :=
  serveB (.restoreItem context tag source handle volume) s fun e =>
    if s.rcuWaits then .next s
    else if 7 < context ∨ handle = 0 ∨ 15 < volume then .next (s.settleB e (OutcomeCode.bare .badField))
    else if s.reaches context tag = false then .next (s.settleB e (OutcomeCode.bare .noContext))
    else
      let c := s.context context
      let t := s.restartDeadline context
      if c.state = .limited then .next (t.settleB e (OutcomeCode.bare .limited))
      else if Config.itemLimit ≤ c.items.length then .next (t.settleB e (OutcomeCode.bare .itemLimit))
      else withTables ecc s <|
        match s.visibleSource source c with
        | none => t.settleB e (OutcomeCode.bare .notVisible)
        | some r =>
          if (s.extent handle).isSome ∨ s.claimed handle then t.settleB e (OutcomeCode.bare .duplicate)
          else if s.tableFull then t.settleB e (OutcomeCode.bare .tableFull)
          else (t.claim .item handle).phase .b e.position (.claimed r.length)

/-- The item that awaits its decision, with its length (R80). -/
def State.claimedItem (s : State) : Option (InProgress × Nat × Nat × Nat × Nat) :=
  match s.cqp.ringB.inProgress with
  | [] => none
  | e :: _ =>
    match e.command, e.phase with
    | some (.restoreItem c _ _ h v), .claimed n => some (e, c, h, v, n)
    | _, _ => none

/-- An item is reserved, within an access to the target owner's record: the RESERVED record, the rise of R and the item
(R81). -/
def State.reserve (s : State) (i owner h volume n : Nat) : State :=
  let t := (s.access owner fun r => r.addReserved n).withExtent h
    ⟨owner, volume, n, .reserved, none, none, none, false, some i⟩
  (t.withContext i { t.context i with items := (t.context i).items ++ [h] }).unclaim h

/-- How a denied item is settled by override, class policy and station default (R82). -/
inductive DeniedItem | beyond | refuse | limit
deriving DecidableEq, Repr

/-- The first matching row of the table of R82. -/
def settleDenied (override : Bool) (policy : Policy) (stationPartial : Bool) : DeniedItem :=
  if override then .beyond
  else match policy with
    | .allow => .beyond
    | .refuse => .refuse
    | .partly => .limit
    | .asStation => if stationPartial then .limit else .refuse

/-- Item count and reserved blocks after an item. -/
def State.itemFigures (s : State) (i : Nat) : List Item :=
  [.fixed 4 (s.context i).items.length, .fixed 4 (s.contextBlocks i)]

/-- RESTORE_ITEM_ADMISSION: the decision for the item that awaits it; a grant reserves the item in the same access (R81), and a
denial is settled by the table of R82, its write of R being a second access (R17). That the state item LIMITED, carried for PARTIAL
alone, takes no presence bit is the model's choice (assumption 13). -/
def execRestoreItemAdmission (ecc : Ecc) (s : State) : Result :=
  match s.claimedItem with
  | none => .next s
  | some (e, i, h, v, n) =>
    if s.operates = false then .next s
    else withTables ecc s <|
      let c := s.context i
      let o := c.owner.getD 0
      let r := s.opened o
      let d := s.decision r n
      if d.grants then
        let t := s.reserve i o h v n
        t.settleB e (s.decided d (t.owner o) (.fixed 4 h :: t.itemFigures i))
      else
        let t := s.access o id
        let verdict := fun (code : OutcomeCode) (items : List Item) =>
          s.decided code (t.owner o) (.fixed 1 d.number :: items)
        match settleDenied c.override (s.classRec r.cls).policy s.config.defaultPartial with
        | .beyond =>
          let u := t.reserve i o h v n
          u.settleB e (verdict .admittedOver (.fixed 4 h :: u.itemFigures i))
        | .refuse => (t.unclaim h).settleB e (verdict .refusedLimit (t.itemFigures i))
        | .limit =>
          ((t.unclaim h).withContext i { c with state := .limited }).settleB e
            (verdict .refusedLimit (t.itemFigures i ++ [.fixed 1 ContextState.limited.byte]))

/-! ### The end of a context (R84, R86, R87) -/

/-- One item is committed, in one access to the target owner's record (R84). -/
def State.commitItem (s : State) (h : Nat) (r : ExtentRec) : State :=
  let k := s.scu.current
  let copy := s.copyStateFor r.volume (s.opened r.owner).cls
  let t := s.access r.owner fun o => (o.dropReserved r.length).addLive r.length
  (t.withExtent h { r with state := .live, birth := some k, copy := some copy, context := none }).journal copy h r.length k

/-- One item is deleted, in one access to the target owner's record (R86). -/
def State.abandonItem (s : State) (h : Nat) (r : ExtentRec) : State :=
  (s.access r.owner fun o => o.dropReserved r.length).dropExtent h

/-- The next item of the context is committed or deleted, and leaves the item list. -/
def State.endItem (s : State) (w : EndWork) : State :=
  match (s.context w.context).items with
  | [] => s
  | h :: rest =>
    let n := s.extentLength h
    let t := match s.extent h with
      | none => s
      | some r => match w.kind with
        | .commit => s.commitItem h r
        | .abort | .expiry => s.abandonItem h r
    let t := t.withContext w.context { t.context w.context with items := rest }
    { t with rcu := { t.rcu with work := t.rcu.work.map fun x => { x with items := x.items + 1, blocks := x.blocks + n } } }

/-- Up to `n` items of the work are dealt with, in item-list order. -/
def State.endItems (s : State) (w : EndWork) : Nat → State
  | 0 => s
  | n + 1 => (s.endItem w).endItems w n

/-- After its last item the context becomes FREE and its record takes the removal test; a command is completed with what was
done and the state the context ended in, and an expiry raises RESTORE-EXPIRED (R84, R86, R87, R89). -/
def State.freeContext (s : State) (w : EndWork) : State :=
  let c := s.context w.context
  let t := s.withContext w.context .free
  let t := { t with rcu := { t.rcu with work := none } }
  let t := match c.epoch with
    | none => t
    | some e => t.removalTest e
  let done := s.rcu.work.getD w
  match w.kind with
  | .expiry => t.raise .restoreExpired
  | _ => t.settleWorking
      (OutcomeCode.carrying .done [.fixed 4 done.items, .fixed 4 done.blocks, .fixed 1 c.state.byte])

/-- The end of a context goes on by up to `n` items, and ends with its last; a table fault meets the item after them (R85,
R91). -/
def State.continueEnd (s : State) (w : EndWork) (n : Nat) (ecc : Ecc) : State :=
  let t := s.endItems w n
  match ecc with
  | .uncorrectable => t.enterHalted .table
  | _ => if (t.context w.context).items = [] then t.freeContext w else t

/-- RCU takes the end of a context as its piece of work; a command restarts the deadline, which does not run meanwhile, and an
expiry leaves it passed (R76, R77, R85, R87). -/
def State.beginEnd (s : State) (kind : EndKind) (i : Nat) : State :=
  let t := if kind = .expiry then s else s.restartDeadline i
  { t with rcu := { t.rcu with work := some ⟨kind, i, 0, 0⟩ } }

/-- A RESTORE-COMMIT or RESTORE-ABORT is taken, or goes on where an earlier step left it. -/
def endByCommand (kind : EndKind) (c : HostCommand) (i tag items : Nat) (ecc : Ecc) (s : State) : Result :=
  match s.workingB c with
  | some _ => if s.operates then .next (s.continueEnd ⟨kind, i, 0, 0⟩ items ecc) else .next s
  | none => serveB c s fun e =>
    if s.rcuWaits then .next s
    else if 7 < i then .next (s.settleB e (OutcomeCode.bare .badField))
    else if s.reaches i tag = false then .next (s.settleB e (OutcomeCode.bare .noContext))
    else .next (((s.beginEnd kind i).phase .b e.position .working).continueEnd ⟨kind, i, 0, 0⟩ items ecc)

/-- RESTORE_COMMIT: the items become LIVE in item-list order, R falling and L rising, and the context becomes FREE after the
last (R84, R85). The step deals with up to `items` items. -/
def execRestoreCommit (context tag items : Nat) (ecc : Ecc) (s : State) : Result :=
  endByCommand .commit (.restoreCommit context tag) context tag items ecc s

/-- RESTORE_ABORT: the items are deleted in item-list order, R falling, and the context becomes FREE after the last (R86). -/
def execRestoreAbort (context tag items : Nat) (ecc : Ecc) (s : State) : Result :=
  endByCommand .abort (.restoreAbort context tag) context tag items ecc s

/-- IDLE_EXPIRY: when the deadline of a context has passed and RCU has no other work, its items are deleted as by
RESTORE-ABORT, the context becomes FREE and RESTORE-EXPIRED is raised (R87, R88). Of several deadlines passed, that of the
step's context is taken (assumption 37). -/
def execIdleExpiry (context items : Nat) (ecc : Ecc) (s : State) : Result :=
  if s.operates = false then .next s
  else match s.rcu.work with
    | some w =>
      if w.kind = .expiry ∧ w.context = context then .next (s.continueEnd ⟨.expiry, context, 0, 0⟩ items ecc) else .next s
    | none =>
      if s.rcuBusy = false ∧ s.deadlinePassed context then
        .next ((s.beginEnd .expiry context).continueEnd ⟨.expiry, context, 0, 0⟩ items ecc)
      else .next s

end Sys2Proof.Machine
end

