-- ==== Sys2Proof/Machine/Segment.lean ====
section
/-! DEFINITION. The Peer Segment (chapter 5): BEACON_TICK, PEER_SILENCE, ENTER_ACTIVE, PEER_FORGET, ATTEMPT_START, COLLISION,
BACKOFF_END, SEND_SUCCESS, FRAGMENT, BULLETIN_ARRIVAL, BULLETIN_FILTER, MEDIUM_BUSY. -/

namespace Sys2Proof.Machine

/-! ### The beacon tick and the forget timer -/

/-- BEACON_TICK: the beacon interval has run out in LISTENING, ACTIVE or MUTE (R100, R107, R163, R164). -/
def execBeaconTick (tick : BeaconTick) (s : State) : Result :=
  if s.tickDue then s.takeTick tick else .next s

/-- The next tick makes a PRESENT peer SILENT (R107). -/
def State.falling (s : State) (p : Nat) : Bool :=
  decide (p ≠ s.stc.stationNumber) && decide ((s.peer p).state = .present) &&
    decide (s.config.silenceLimit ≤ (s.peer p).silence + 1)

/-- PEER_SILENCE: the beacon tick at which the silence count of a peer reaches the limit; it is that tick's one event
(R107). -/
def execPeerSilence (peer : Nat) (tick : BeaconTick) (s : State) : Result :=
  if s.tickDue ∧ s.falling peer then s.takeTick tick else .next s

/-- ENTER_ACTIVE: the third beacon tick after entry to LISTENING; it is that tick's one event (R100, R192). -/
def execEnterActive (tick : BeaconTick) (s : State) : Result :=
  if s.tickDue ∧ s.stc.state = .listening ∧ Config.ticksToActive ≤ s.psi.listeningTicks + 1 then
    s.takeTick tick
  else .next s

/-- The forget timer of a peer has reached the forget limit (R108). -/
def State.forgetDue (s : State) (p : Nat) : Bool :=
  s.operates && decide (p ≠ s.stc.stationNumber) && decide ((s.peer p).state = .silent) &&
    decide (0 < s.config.forgetLimit) && decide (s.config.forgetLimit * 60 * Config.second ≤ (s.peer p).forgetTimer)

/-- PEER_FORGET: the entry becomes ABSENT with every field cleared, and an ALL purge is handed to UVU (R108, R118). -/
def execPeerForget (peer : Nat) (s : State) : Result :=
  .next (if s.forgetDue peer then (s.withPeer peer .afterReset).requestAll peer else s)

/-! ### Sending -/

/-- A holding slot. -/
def Psi.slot (p : Psi) : SlotKind → Option Holding
  | .snapcall => p.snapcall
  | .beacon => p.beacon
  | .usage => p.usage

/-- The interface with a holding slot set. -/
def Psi.withSlot (p : Psi) (k : SlotKind) (h : Option Holding) : Psi :=
  match k with
  | .snapcall => { p with snapcall := h }
  | .beacon => { p with beacon := h }
  | .usage => { p with usage := h }

/-- The arbiter's choice: SNAPCALL, then BEACON, then USAGE (R96). -/
def Psi.arbiter (p : Psi) : Option (SlotKind × Holding) :=
  match p.snapcall, p.beacon, p.usage with
  | some h, _, _ => some (.snapcall, h)
  | none, some h, _ => some (.beacon, h)
  | none, none, some h => some (.usage, h)
  | none, none, none => none

/-- DEFER if a slot is occupied, IDLE if none is (R95, R99). -/
def Psi.afterSend (p : Psi) : TxState := if p.arbiter.isSome then .deferring else .idle

/-- ATTEMPT_START: in ACTIVE and DEFER, once the medium has been idle for the whole gap, the highest-priority occupied slot
gives the attempt; the sequence counter and the slot's attempt count rise by 1 (R93, R95, R96). -/
def execAttemptStart (s : State) : Result :=
  .next (if s.stc.state = .active ∧ s.psi.tx = .deferring ∧ s.psi.mediumBusy = false ∧
      Config.interBulletinGap ≤ s.psi.gapTimer then
    match s.psi.arbiter with
    | none => s
    | some (k, h) =>
      let n := (s.psi.sequence + 1) % 65536
      let b : Bulletin := ⟨s.stc.stationNumber, s.psi.incarnation.getD 0, n, h.payload⟩
      { s with psi := { s.psi.withSlot k (some { h with attempts := h.attempts + 1 }) with
        sequence := n
        tx := .sending
        attempt := some ⟨k, b⟩
        beaconReplaced := false } }
  else s)

/-- The drop rule applies to a BEACON or USAGE whose eighth attempt has collided (R98). -/
def dropsAt (k : SlotKind) (attempts : Nat) : Bool := decide (k ≠ .snapcall) && decide (Config.maxAttempts ≤ attempts)

/-- The backoff delay of a draw after the k-th collision, in slot times (R97). -/
def backoffSlots (draw k : Nat) : Nat := draw % 2 ^ min k 6

/-- COLLISION: an attempt on the wire is stopped; a bulletin whose eighth attempt it was is dropped unless it is a SNAPCALL;
a delay is drawn and BACKOFF entered (R97, R98). -/
def execCollision (s : State) : Result :=
  .next (match s.psi.tx, s.psi.attempt with
  | .sending, some a =>
    let k := ((s.psi.slot a.slot).map Holding.attempts).getD 0
    let p := if dropsAt a.slot k then
        { s.psi.withSlot a.slot none with dropCount := min Config.countCeiling (s.psi.dropCount + 1) }
      else s.psi
    { s with psi := { p with
      tx := .backoff
      attempt := none
      beaconReplaced := false
      backoffDelay := backoffSlots s.psi.generator.value k
      backoffTimer := 0
      gapTimer := 0
      generator := { s.psi.generator with draws := s.psi.generator.draws + 1 } } }
  | _, _ => s)

/-- BACKOFF_END: the drawn delay has run out; DEFER if a slot is occupied and IDLE if none is (R95). -/
def execBackoffEnd (s : State) : Result :=
  .next (if s.psi.tx = .backoff ∧ s.psi.backoffDelay * Config.slotTime ≤ s.psi.backoffTimer then
    { s with psi := { s.psi with tx := s.psi.afterSend, backoffDelay := 0, backoffTimer := 0 } }
  else s)

/-- SEND_SUCCESS: the attempt's last bit is sent with no collision; its slot is emptied, but a BEACON replaced during the
attempt stays with attempt count 0 (R94, R99). -/
def execSendSuccess (s : State) : Result :=
  .next (match s.psi.tx, s.psi.attempt with
  | .sending, some a =>
    let kept := if a.slot = .beacon ∧ s.psi.beaconReplaced then s.psi.beacon.map fun h => { h with attempts := 0 } else none
    let p := s.psi.withSlot a.slot kept
    { s with psi := { p with
      tx := p.afterSend
      attempt := none
      beaconReplaced := false
      justSent := some a.bulletin
      gapTimer := 0 } }
  | _, _ => s)

/-! ### The medium and the receive FIFO -/

/-- The medium has become idle: the gap starts again (R95). -/
def Psi.mediumIdle (p : Psi) : Psi := { p with mediumBusy := false, gapTimer := 0 }

/-- FRAGMENT: a transmission that ends before a bulletin's length is discarded at once and takes no place in the FIFO; the
medium is idle from here (R95, R101). -/
def execFragment (s : State) : Result := .next { s with psi := s.psi.mediumIdle }

/-- MEDIUM_BUSY: another station's transmission, or a fragment, holds the medium; the gap starts again when it ends (R95). -/
def execMediumBusy (s : State) : Result := .next { s with psi := { s.psi with mediumBusy := true, gapTimer := 0 } }

/-- The echo test at arrival: the attempt that ended with the same last bit carries the bulletin's sender, incarnation and
sequence (R101). -/
def Psi.echoCandidate (p : Psi) (data : List Byte) : Bool :=
  let same := fun b : Bulletin => decide (bulletinIdentity data = (b.sender, b.incarnation, b.sequence))
  (decide (p.tx = .sending) && p.attempt.elim false fun a => same a.bulletin) || p.justSent.elim false same

/-- A bulletin arrives at the receive FIFO, or is dropped and counted where it holds 8 (R101). -/
def Psi.arrive (p : Psi) (data : List Byte) : Psi :=
  if p.fifo.length < Config.fifoCapacity then
    { p with fifo := p.fifo ++ [⟨data.take 40, decide (40 < data.length), p.echoCandidate data⟩] }
  else { p with overflowCount := min Config.countCeiling (p.overflowCount + 1) }

/-- BULLETIN_ARRIVAL: the last bit of a transmission of full length is received. In the states that hear, it goes to the
FIFO; a transmission that is shorter is a fragment (R95, R101). -/
def execBulletinArrival (data : List Byte) (s : State) : Result :=
  .next { s with psi := if s.stc.state.receives ∧ 40 ≤ data.length then (s.psi.arrive data).mediumIdle else s.psi.mediumIdle }

/-! ### The filter -/

/-- Serial comparison: ahead by 1 to 32,767 (R104). -/
def aheadBy (a b : Nat) : Nat := (a + (65536 - b % 65536)) % 65536

def ahead (a b : Nat) : Bool := decide (1 ≤ aheadBy a b) && decide (aheadBy a b ≤ 32767)

/-- What the acceptance test finds (R104). -/
inductive Acceptance | fresh | accepted | stale
deriving DecidableEq, Repr

/-- The acceptance test of a bulletin against its sender's entry; `fresh` is a first contact or an incarnation change
(R104). -/
def acceptance (x : Peer) (incarnation sequence : Nat) : Acceptance :=
  match x.incarnation with
  | none => .fresh
  | some i =>
    if i ≠ incarnation then .fresh
    else match x.state with
      | .silent => if x.lastSequence = some sequence then .stale else .accepted
      | _ => if ahead sequence (x.lastSequence.getD 0) then .accepted else .stale

/-- The entry as acceptance leaves it, before the bulletin is handed on (R105, R110). -/
def Peer.accept (x : Peer) (fresh : Bool) (incarnation sequence : Nat) : Peer :=
  { x with
    state := .present
    silence := 0
    forgetTimer := 0
    incarnation := some incarnation
    lastSequence := some sequence
    beacon := if fresh then none else x.beacon
    reference := if fresh then none else x.reference
    caughtUp := !fresh && x.caughtUp
    purgeTarget := if fresh then some incarnation else x.purgeTarget }

/-- The counter is ahead of the reference by 2 to 32,767 (R109). -/
def roundPassed (cycle reference : Nat) : Bool := decide (2 ≤ aheadBy cycle reference) && decide (aheadBy cycle reference ≤ 32767)

/-- The catch-up test on an accepted BEACON: the entry, and the target of the STALE purge it asks for (R109). -/
def Peer.catchUp (x : Peer) (cycle : Nat) : Peer × Option Nat :=
  if x.caughtUp then (x, none)
  else match x.reference with
    | none => ({ x with reference := some cycle }, none)
    | some r => if roundPassed cycle r then ({ x with caughtUp := true, purgeTarget := none }, x.purgeTarget) else (x, none)

/-- A heard BEACON acts on its sender's entry (R105, R109). -/
def State.hearBeacon (s : State) (p : Nat) (c : BeaconContents) : State :=
  let (x, target) := { s.peer p with beacon := some c }.catchUp c.cycle
  let t := s.withPeer p x
  match target with
  | none => t
  | some i => t.requestStale p i

/-- Highest heard is raised by an accepted SNAPCALL, whatever SCU then does with it (R58). -/
def State.hearEpoch (s : State) (epoch : Nat) : State :=
  { s with scu := { s.scu with highestHeard := max s.scu.highestHeard epoch } }

/-- A call is missed (R61). -/
def State.missCall (s : State) (epoch : Nat) : State :=
  { s with scu := { s.scu with lastMissed := some epoch } }.raise .catalogueChanged

/-- What SCU does with a heard SNAPCALL: ignored, missed, or a PEER-CALL record (R59, R61). -/
def State.hearCall (s : State) (p epoch : Nat) (kind : CallKind) : State :=
  if epoch ≤ s.scu.current then s
  else if s.operates = false ∨ s.catalogueFull then s.missCall epoch
  else (s.makeRecord epoch (.peerCall p kind) s.config.peerRetention s.config.peerGroup).raise .catalogueChanged

/-- An accepted bulletin acts on its sender's entry and is handed on by its kind (R105). -/
def State.acceptBulletin (s : State) (b : Bulletin) (fresh : Bool) (ecc : Ecc) : Result :=
  let t := s.withPeer b.sender ((s.peer b.sender).accept fresh b.incarnation b.sequence)
  match b.payload with
  | .beacon c => .next (t.hearBeacon b.sender c)
  | .usage owner value => .next { t with psi := { t.psi with handed := some ⟨b.sender, owner, value⟩ } }
  | .snapcall epoch kind =>
    let u := t.hearEpoch epoch
    withTables ecc u (u.hearCall b.sender epoch kind)

/-- A bulletin under the station's own number that is no echo: entry to MUTE from LISTENING and ACTIVE, else no effect
(R102, R103). -/
def State.ownNumber (s : State) (echo : Bool) : State :=
  if echo = false ∧ (s.stc.state = .listening ∨ s.stc.state = .active) then s.enterMute else s

/-- BULLETIN_FILTER: the bulletin at the head of the FIFO is disposed of by the first test that applies, once the bulletin
before it has been taken (R101, R102, R104, R200). -/
def execBulletinFilter (ecc : Ecc) (s : State) : Result :=
  match s.stc.state.receives, s.psi.handed, s.psi.fifo with
  | true, none, head :: rest =>
    let t := { s with psi := { s.psi with fifo := rest } }
    match if head.oversize then none else bulletinOf head.data with
    | none => .next { t with psi := { t.psi with errorCount := min Config.countCeiling (t.psi.errorCount + 1) } }
    | some b =>
      if b.sender = s.stc.stationNumber then .next (t.ownNumber head.echo)
      else match acceptance (s.peer b.sender) b.incarnation b.sequence with
        | .stale => .next t
        | .fresh => t.acceptBulletin b true ecc
        | .accepted => t.acceptBulletin b false ecc
  | _, _, _ => .next s

end Sys2Proof.Machine
end

