-- ==== Sys2Proof/Machine/Usage.lean ====
section
/-! DEFINITION. The campus usage view (chapter 6): USAGE_APPLY, PURGE_VISIT, WALKER_EXPIRY, INSPECT_PEERS. -/

namespace Sys2Proof.Machine

/-! ### Contributions (R115, R116, R117) -/

/-- A contribution is placed in the list, replacing the peer's earlier one, and P changes by the difference (R116). -/
def OwnerRec.putContribution (r : OwnerRec) (c : Contribution) : OwnerRec :=
  { r with
    contributions := placeContribution c r.contributions
    peerSum := r.peerSum - ((r.contribution c.station).map Contribution.value).getD 0 + c.value }

/-- Entries of the pool in use change, and the view-incomplete flag is set or cleared. -/
def State.withPool (s : State) (inUse : Nat) (incomplete : Bool) : State :=
  { s with uvu := { s.uvu with poolInUse := inUse, viewIncomplete := incomplete } }

/-- The incarnation recorded with an applied USAGE: the sender's as the Station Table stores it (R105, R116). Where its entry has
been forgotten meanwhile and stores none, the manual gives no value, and the model a free one (assumption 44). -/
def State.usageIncarnation (s : State) (u : HandedUsage) : Nat :=
  (s.peer u.peer).incarnation.getD (Config.forgottenIncarnation u.peer u.owner u.value % 65536)

/-- The table of R116, in one access to the owner record. -/
def State.applyUsage (s : State) (u : HandedUsage) : State :=
  let incarnation := s.usageIncarnation u
  match (s.owner u.owner).contribution u.peer with
  | some c =>
    if u.value = 0 then
      (s.access u.owner fun r => r.dropContribution c).withPool (s.uvu.poolInUse - 1) s.uvu.viewIncomplete
    else s.access u.owner fun r => r.putContribution ⟨u.peer, u.value, incarnation⟩
  | none =>
    if u.value = 0 then s.access u.owner id
    else if s.uvu.poolInUse < Config.poolCapacity then
      (s.access u.owner fun r => r.putContribution ⟨u.peer, u.value, incarnation⟩).withPool (s.uvu.poolInUse + 1)
        s.uvu.viewIncomplete
    else (s.access u.owner id).withPool s.uvu.poolInUse true

/-- USAGE_APPLY: UVU takes the accepted USAGE that waits (R101, R116). -/
def execUsageApply (ecc : Ecc) (s : State) : Result :=
  match s.psi.handed with
  | none => .next s
  | some u =>
    if s.stc.state.receives = false then .next s
    else
      let t := { s with psi := { s.psi with handed := none } }
      withTables ecc t (t.applyUsage u)

/-! ### Purge walks (R119, R120) -/

/-- The visit removes an entry of this incarnation (R119). -/
def PurgeMode.removes (m : PurgeMode) (stored : Option Nat) (incarnation : Nat) : Bool :=
  match m with
  | .all => true
  | .stale target => decide (incarnation ≠ target) && decide (some incarnation ≠ stored)

/-- One visit to an owner record, in one access (R119, R117). -/
def State.purgeOwner (s : State) (w : PurgeWalk) : State :=
  match (s.owner w.position).contribution w.station with
  | some c =>
    if w.mode.removes (s.peer w.station).incarnation c.incarnation then
      (s.access w.position fun r => r.dropContribution c).withPool (s.uvu.poolInUse - 1) false
    else s.access w.position id
  | none => s.access w.position id

/-- The walk moves to the next owner; the visit to the last owner ends it and the next waiting request starts (R118,
R119). -/
def Uvu.advanceWalk (u : Uvu) (w : PurgeWalk) : Uvu :=
  if w.position + 1 < Config.ownerCount then { u with walk := some { w with position := w.position + 1 } }
  else { u with walk := none }.startWalk

/-- PURGE_VISIT: a running walk visits the owner at its position (R119). -/
def execPurgeVisit (ecc : Ecc) (s : State) : Result :=
  match s.uvu.walk with
  | none => .next s
  | some w =>
    if s.stc.state.receives = false then .next s
    else withTables ecc s <|
      let t := s.purgeOwner w
      { t with uvu := t.uvu.advanceWalk w }

/-! ### The walker (R123 to R126) -/

/-- The walker's interval has run out (R123). -/
def State.walkerDue (s : State) : Bool :=
  decide (s.stc.state = .active) &&
    s.uvu.walkerTimer.elim false fun t => decide (s.config.walkerInterval * Config.millisecond ≤ t)

/-- WALKER_EXPIRY: the walker's interval has run out in ACTIVE; the counter reloads, and with the USAGE slot empty the walker
makes one pick (R123, R124). -/
def execWalkerExpiry (ecc : Ecc) (s : State) : Result :=
  if s.walkerDue then
    let t := { s with uvu := { s.uvu with walkerTimer := some 0 } }
    if s.psi.usage.isSome then .next t else withTables ecc t t.walkerPick
  else .next s

/-! ### Inspection (R127) -/

/-- The items of the named entry: SELF carries its own three and none of a peer's, and a peer none of SELF's, with neither places
nor presence bits for the others. That, and that a peer's incarnation and last sequence, always present together, have a presence
bit each, is the model's choice (assumption 13). -/
def State.entryItems (s : State) (station : Nat) : List Item :=
  if station = s.stc.stationNumber then
    [.fixed 1 station, optItem 2 s.psi.incarnation, .fixed 2 s.psi.sequence]
  else
    let x := s.peer station
    let b := x.beacon.getD ⟨false, 0, 0, 0⟩
    [.fixed 1 x.state.byte, optItem 2 x.incarnation, optItem 2 x.lastSequence, .fixed 1 x.silence,
     .fixed 2 (x.forgetTimer / (60 * Config.second)),
     .optional x.beacon.isSome [(1, flagByte b.night), (2, b.cycle), (4, b.epoch), (4, b.demand)],
     optItem 2 x.reference, .fixed 1 (flagByte x.caughtUp), optItem 2 x.purgeTarget]

/-- The named peer's entry for the owner. -/
def State.contributionItem (s : State) (station : Nat) (owner : Option Nat) : Item :=
  match if station = s.stc.stationNumber then none else owner.bind fun o => (s.owner o).contribution station with
  | none => .optional false [(4, 0), (2, 0)]
  | some c => .optional true [(4, c.value), (2, c.incarnation)]

/-- The items of a purge walk; what a walk alone has is 0 while none runs, and the target is 0 but for STALE. -/
def walkItems : Option PurgeWalk → List Item
  | none => [.fixed 1 1, .fixed 1 0, .fixed 1 0, .fixed 2 0, .fixed 2 0]
  | some w =>
    let (mode, target) := match w.mode with
      | .all => (1, 0)
      | .stale t => (2, t)
    [.fixed 1 2, .fixed 1 w.station, .fixed 1 mode, .fixed 2 target, .fixed 2 w.position]

/-- The items INSPECT-PEERS carries (R127). The Dirty List's length has the width R196 gives lengths (assumption 13). -/
def State.peerItems (s : State) (station : Nat) (owner : Option Nat) : List Item :=
  s.entryItems station ++
  [s.contributionItem station owner, .fixed 4 s.uvu.poolInUse, .fixed 1 (flagByte s.uvu.viewIncomplete),
   .fixed 2 s.uvu.dirtyList.length, .fixed 1 (flagByte s.uvu.overflowed), .fixed 2 s.uvu.walkCycle,
   .fixed 2 s.uvu.sweepPointer, .fixed 1 s.uvu.consecutiveDirty] ++
  walkItems s.uvu.walk ++
  [.fixed 1 (s.uvu.allRequests.length + s.uvu.staleRequests.length), .fixed 4 s.psi.overflowCount,
   .fixed 4 s.psi.errorCount, .fixed 4 s.psi.dropCount]

/-- INSPECT_PEERS: one Station Table entry and the state of UVU, read in one event that changes nothing (R127). -/
def execInspectPeers (station : Nat) (owner : Option Nat) (ecc : Ecc) (s : State) : Result :=
  serveB (.inspectPeers station owner) s fun e =>
    if Config.stationCount ≤ station then .next (s.settleB e (OutcomeCode.bare .badField))
    else withTables ecc s <| s.settleB e (OutcomeCode.carrying .done (s.peerItems station owner))

end Sys2Proof.Machine
end

