-- ==== Sys2Proof/Machine/Dispatch.lean ====
section
/-! DEFINITION. One arm per step: each calls the meaning of its row of the operation table. -/

namespace Sys2Proof.Machine

def exec (i : Instr) (s : State) : Host.Outcome State Fault Refusal :=
  match i with
  | .powerOn straps => Sys2Proof.Machine.execPowerOn straps s
  | .resetN straps => Sys2Proof.Machine.execResetN straps s
  | .stationReset value straps => Sys2Proof.Machine.execStationReset value straps s
  | .configurationRead read => Sys2Proof.Machine.execConfigurationRead read s
  | .queueBase value dma => Sys2Proof.Machine.execQueueBase value dma s
  | .notifyU _ => Sys2Proof.Machine.execNotifyU s
  | .notifyB _ => Sys2Proof.Machine.execNotifyB s
  | .attentionRelease _ => Sys2Proof.Machine.execAttentionRelease s
  | .unmappedWrite _ _ => Sys2Proof.Machine.execUnmappedWrite s
  | .stagingWindowWrite offset data => Sys2Proof.Machine.execStagingWindowWrite offset data s
  | .producerIndexRead ring read => Sys2Proof.Machine.execProducerIndexRead ring read s
  | .commandFetch read => Sys2Proof.Machine.execCommandFetch read s
  | .responseWrite consumer dma => Sys2Proof.Machine.execResponseWrite consumer dma s
  | .responseRoomPoll consumer dma => Sys2Proof.Machine.execResponseRoomPoll consumer dma s
  | .attentionPost dma => Sys2Proof.Machine.execAttentionPost dma s
  | .charge handle owner volume length ecc => Sys2Proof.Machine.execCharge handle owner volume length ecc s
  | .chargeAdmission position ecc => Sys2Proof.Machine.execChargeAdmission position ecc s
  | .dirtyReport ecc => Sys2Proof.Machine.execDirtyReport ecc s
  | .release handle ecc => Sys2Proof.Machine.execRelease handle ecc s
  | .sweepVisit ecc => Sys2Proof.Machine.execSweepVisit ecc s
  | .reclaimBatchTimeout ecc => Sys2Proof.Machine.execReclaimBatchTimeout s ecc
  | .reclaimBatchPost ecc => Sys2Proof.Machine.execReclaimBatchPost s ecc
  | .start mode incarnation day second ecc => Sys2Proof.Machine.execStart mode incarnation day second ecc s
  | .tableEmptyingEnd ecc => Sys2Proof.Machine.execTableEmptyingEnd ecc s
  | .cleanupWalkStep ecc => Sys2Proof.Machine.execCleanupWalkStep ecc s
  | .cleanupWalkEnd ecc => Sys2Proof.Machine.execCleanupWalkEnd ecc s
  | .rebuildDone ecc => Sys2Proof.Machine.execRebuildDone ecc s
  | .checkWalkVisit ecc => Sys2Proof.Machine.execCheckWalkVisit ecc s
  | .checkWalkEnd ecc => Sys2Proof.Machine.execCheckWalkEnd ecc s
  | .loadOwner owner cls soft hard grace ecc => Sys2Proof.Machine.execLoadOwner owner cls soft hard grace ecc s
  | .loadSnapshot epoch day second retention group ecc => Sys2Proof.Machine.execLoadSnapshot epoch day second retention group ecc s
  | .loadExtent handle owner volume length state birth death copy ecc => Sys2Proof.Machine.execLoadExtent handle owner volume length state birth death copy ecc s
  | .setClock day second ecc => Sys2Proof.Machine.execSetClock day second ecc s
  | .setLimits owner soft hard effect ecc => Sys2Proof.Machine.execSetLimits owner soft hard effect ecc s
  | .setOwnerClass owner cls ecc => Sys2Proof.Machine.execSetOwnerClass owner cls ecc s
  | .setClass cls graceDays weight policy => Sys2Proof.Machine.execSetClass cls graceDays weight policy s
  | .callSnapshot retention group ecc => Sys2Proof.Machine.execCallSnapshot retention group ecc s
  | .expireSnapshot epoch ecc => Sys2Proof.Machine.execExpireSnapshot epoch ecc s
  | .protectGroup group ecc => Sys2Proof.Machine.execProtectGroup group ecc s
  | .unprotectGroup group ecc => Sys2Proof.Machine.execUnprotectGroup group ecc s
  | .restoreOpen epoch owner override tag ecc => Sys2Proof.Machine.execRestoreOpen epoch owner override tag ecc s
  | .restoreItem context tag source handle volume ecc => Sys2Proof.Machine.execRestoreItem context tag source handle volume ecc s
  | .restoreItemAdmission ecc => Sys2Proof.Machine.execRestoreItemAdmission ecc s
  | .restoreCommit context tag items ecc => Sys2Proof.Machine.execRestoreCommit context tag items ecc s
  | .restoreAbort context tag items ecc => Sys2Proof.Machine.execRestoreAbort context tag items ecc s
  | .idleExpiry context items ecc => Sys2Proof.Machine.execIdleExpiry context items ecc s
  | .staged slot handle ecc => Sys2Proof.Machine.execStaged slot handle ecc s
  | .stageFailed slot handle ecc => Sys2Proof.Machine.execStageFailed slot handle ecc s
  | .inspectOwner owner ecc => Sys2Proof.Machine.execInspectOwner owner ecc s
  | .inspectSnapshots epoch ecc => Sys2Proof.Machine.execInspectSnapshots epoch ecc s
  | .inspectPeers station owner ecc => Sys2Proof.Machine.execInspectPeers station owner ecc s
  | .inspectNight ecc => Sys2Proof.Machine.execInspectNight ecc s
  | .expiryPass ecc => Sys2Proof.Machine.execExpiryPass ecc s
  | .clockRollover => Sys2Proof.Machine.execClockRollover s
  | .beaconTick tick => Sys2Proof.Machine.execBeaconTick tick s
  | .peerSilence peer tick => Sys2Proof.Machine.execPeerSilence peer tick s
  | .enterActive tick => Sys2Proof.Machine.execEnterActive tick s
  | .peerForget peer => Sys2Proof.Machine.execPeerForget peer s
  | .attemptStart => Sys2Proof.Machine.execAttemptStart s
  | .collision => Sys2Proof.Machine.execCollision s
  | .backoffEnd => Sys2Proof.Machine.execBackoffEnd s
  | .sendSuccess => Sys2Proof.Machine.execSendSuccess s
  | .fragment => Sys2Proof.Machine.execFragment s
  | .bulletinArrival data => Sys2Proof.Machine.execBulletinArrival data s
  | .bulletinFilter ecc => Sys2Proof.Machine.execBulletinFilter ecc s
  | .usageApply ecc => Sys2Proof.Machine.execUsageApply ecc s
  | .purgeVisit ecc => Sys2Proof.Machine.execPurgeVisit ecc s
  | .walkerExpiry ecc => Sys2Proof.Machine.execWalkerExpiry ecc s
  | .windowStart ecc => Sys2Proof.Machine.execWindowStart ecc s
  | .windowEnd ecc => Sys2Proof.Machine.execWindowEnd ecc s
  | .nightReport ecc => Sys2Proof.Machine.execNightReport ecc s
  | .copyCompletion ecc => Sys2Proof.Machine.execCopyCompletion ecc s
  | .takeForStaging ecc => Sys2Proof.Machine.execTakeForStaging ecc s
  | .stagingTimeout slot ecc => Sys2Proof.Machine.execStagingTimeout slot ecc s
  | .helloSend => Sys2Proof.Machine.execHelloSend s
  | .idleSend => Sys2Proof.Machine.execIdleSend s
  | .copySend ecc => Sys2Proof.Machine.execCopySend ecc s
  | .copySendEnd => Sys2Proof.Machine.execCopySendEnd s
  | .readyFrame ecc => Sys2Proof.Machine.execReadyFrame ecc s
  | .idleFrame => Sys2Proof.Machine.execIdleFrame s
  | .ack handle attempt check ecc => Sys2Proof.Machine.execAck handle attempt check ecc s
  | .nak handle attempt reason ecc => Sys2Proof.Machine.execNak handle attempt reason ecc s
  | .badFrame _ => Sys2Proof.Machine.execBadFrame s
  | .replyTimeout slot ecc => Sys2Proof.Machine.execReplyTimeout slot ecc s
  | .busyWaitEnd slot => Sys2Proof.Machine.execBusyWaitEnd slot s
  | .lossOfSignal ecc => Sys2Proof.Machine.execLossOfSignal ecc s
  | .linkSilenceTimeout ecc => Sys2Proof.Machine.execLinkSilenceTimeout ecc s
  | .tokenGain => Sys2Proof.Machine.execTokenGain s
  | .resetNLow => Sys2Proof.Machine.execResetNLow s
  | .mediumBusy => Sys2Proof.Machine.execMediumBusy s

end Sys2Proof.Machine
end

