-- ==== Sys2Proof/Machine/Idle.lean ====
section
/-! DEFINITION. What the part does when no step waits (assumption 1): one cycle of the 25 MHz reference passes, and the steps
that are then due, or that a unit can take from what the station itself holds, join the queue. -/

namespace Sys2Proof.Machine

/-! ### One reference cycle -/

/-- A counter that runs or holds. -/
def runs (on : Bool) (t : Nat) : Nat := if on then t + 1 else t

/-- The Station Clock advances; the last second of a day holds at its end for the rollover (R193). -/
def Clock.advance (c : Clock) : Clock :=
  if c.phase + 1 < Config.second then { c with phase := c.phase + 1 }
  else if c.second + 1 < Config.daySeconds then ⟨c.day, c.second + 1, 0⟩
  else { c with phase := Config.second }

/-- The clock runs from the end of the load in every state, and notes the moments it reaches (R193, R63, R134). -/
def State.advanceClock (s : State) : State :=
  let c := s.stc.clock.advance
  let t := { s with stc := { s.stc with clock := c } }
  if c.second = s.stc.clock.second then t else t.noteMoments

/-- The idle deadlines run in LISTENING, ACTIVE and MUTE, but for the context whose end is under way (R87, R88). -/
def Rcu.advance (r : Rcu) (on : Bool) : Rcu :=
  { r with contexts := r.contexts.zipIdx.map fun x =>
      let busy := decide (r.work.map EndWork.context = some x.2)
      { x.1 with idle := x.1.idle.map (runs (on && !busy)) } }

/-- A SILENT entry's forget timer runs while the forget limit is not 0 (R108). -/
def Peer.advance (x : Peer) (on : Bool) : Peer :=
  { x with forgetTimer := runs (on && decide (x.state = .silent)) x.forgetTimer }

/-- The beacon tick timer, the forget timers, the backoff delay and the gap (R95, R97, R100, R108). -/
def Psi.advance (p : Psi) (on forgets : Bool) : Psi :=
  { p with
    beaconTimer := p.beaconTimer.map (runs on)
    peers := p.peers.map fun x => x.advance (on && forgets)
    backoffTimer := runs (decide (p.tx = .backoff)) p.backoffTimer
    gapTimer := if p.mediumBusy || decide (p.tx = .sending) then 0 else min Config.interBulletinGap (p.gapTimer + 1)
    justSent := none }

/-- The reply timers and BUSY waits (R157, R160, R161). -/
def PlaceState.advance (st : PlaceState) (on : Bool) : PlaceState :=
  match st with
  | .awaiting t => .awaiting (t.map (runs on))
  | .busyWait t => .busyWait (runs on t)
  | .resendDue => .resendDue

/-- The staging deadlines, the outstanding frames, the link's timers and the token period (R147, R153, R154, R165). -/
def Odu.advance (o : Odu) (on operates : Bool) : Odu :=
  { o with
    slots := o.slots.map fun x => { x with timer := x.timer.map (runs on) }
    places := o.places.map fun p => { p with state := p.state.advance operates }
    silenceTimer := runs (operates && o.linkUp) o.silenceTimer
    sendTimer := runs operates o.sendTimer
    tokenTimer := runs on o.tokenTimer }

/-- One cycle of the reference passes. In LOADING nothing runs; in HALTED the Station Clock alone does. -/
def State.advance (s : State) : State :=
  if s.stc.state = .loading then s
  else
    let on := decide (s.stc.state ≠ .halted)
    let op := s.operates
    let t := s.advanceClock
    { t with
      cqp := { t.cqp with pollTimer := runs (s.responds && s.responseFull) t.cqp.pollTimer }
      xtu := { t.xtu with batchTimer := runs (on && !t.xtu.batch.isEmpty) t.xtu.batchTimer }
      rcu := t.rcu.advance op
      psi := t.psi.advance op (decide (0 < s.config.forgetLimit))
      uvu := { t.uvu with walkerTimer := t.uvu.walkerTimer.map (runs (decide (s.stc.state = .active))) }
      cju := { t.cju with windowLeft := t.cju.windowLeft.map fun w => if on then w - 1 else w }
      odu := t.odu.advance on op }

/-! ### The steps that are due -/

/-- A step, where its condition holds. -/
def dueIf (c : Bool) (i : Instr) : List Instr := if c then [i] else []

/-- The step that serves a fetched command. -/
def commandStep : HostCommand → Instr
  | .charge h o v l => .charge h o v l .clean
  | .release h => .release h .clean
  | .start m i d x => .start m i d x .clean
  | .rebuildDone => .rebuildDone .clean
  | .loadOwner o c so ha g => .loadOwner o c so ha g .clean
  | .loadSnapshot e d x r g => .loadSnapshot e d x r g .clean
  | .loadExtent h o v l st b d c => .loadExtent h o v l st b d c .clean
  | .setClock d x => .setClock d x .clean
  | .setLimits o so ha w => .setLimits o so ha w .clean
  | .setOwnerClass o c => .setOwnerClass o c .clean
  | .setClass c g w p => .setClass c g w p
  | .callSnapshot r g => .callSnapshot r g .clean
  | .expireSnapshot e => .expireSnapshot e .clean
  | .protectGroup g => .protectGroup g .clean
  | .unprotectGroup g => .unprotectGroup g .clean
  | .restoreOpen e o v t => .restoreOpen e o v t .clean
  | .restoreItem c t x h v => .restoreItem c t x h v .clean
  | .restoreCommit c t => .restoreCommit c t Config.itemLimit .clean
  | .restoreAbort c t => .restoreAbort c t Config.itemLimit .clean
  | .staged x h => .staged x h .clean
  | .stageFailed x h => .stageFailed x h .clean
  | .inspectOwner o => .inspectOwner o .clean
  | .inspectSnapshots e => .inspectSnapshots e .clean
  | .inspectPeers st o => .inspectPeers st o .clean
  | .inspectNight => .inspectNight .clean

/-- Steps of the commands in progress: one to serve, one whose decision is awaited, or one under way (R35, R76, R171). -/
def State.dueCommands (s : State) : List Instr :=
  let taken := (s.cqp.ringU.inProgress ++ s.cqp.ringB.inProgress).filter fun e =>
    decide (e.phase = .untaken) || decide (e.phase = .working)
  let claimed := s.cqp.ringU.inProgress.filter fun e => match e.phase with
    | .claimed _ => true
    | _ => false
  claimed.map (fun e => Instr.chargeAdmission e.position .clean) ++
  dueIf (s.claimedItem.isSome) (.restoreItemAdmission .clean) ++
  taken.filterMap fun e => e.command.map commandStep

/-- Steps of START and REBUILD-DONE (R189, R190, R191). -/
def State.dueStart (s : State) : List Instr :=
  match s.stc.work with
  | .idle => []
  | .emptying => [.tableEmptyingEnd .clean]
  | .cleaning o p => if s.cleanupTarget o p = .nothing then [.cleanupWalkEnd .clean] else [.cleanupWalkStep .clean]
  | .checking [] _ _ => [.checkWalkEnd .clean]
  | .checking (_ :: _) _ _ => [.checkWalkVisit .clean]

/-- Steps of XTU, SCU and RCU. -/
def State.dueTables (s : State) : List Instr :=
  dueIf (decide (s.stc.clock.second + 1 = Config.daySeconds) && decide (Config.second ≤ s.stc.clock.phase)) .clockRollover ++
  dueIf s.stc.expiryMoment (.expiryPass .clean) ++
  dueIf (s.operates && decide (s.xtu.sweep.state = .running)) (.sweepVisit .clean) ++
  dueIf (decide (s.xtu.batch ≠ []) && !s.xtu.batchWaiting && decide (Config.second ≤ s.xtu.batchTimer)) .reclaimBatchTimeout ++
  dueIf (s.xtu.batchWaiting && s.canHand .reclaim) .reclaimBatchPost ++
  ((List.range s.rcu.contexts.length).filter s.deadlinePassed).map fun i => .idleExpiry i Config.itemLimit .clean

/-- Steps of PSI and UVU. -/
def State.dueCampus (s : State) : List Instr :=
  dueIf s.tickDue (.beaconTick ⟨false, .clean⟩) ++
  ((List.range s.psi.peers.length).filter s.forgetDue).map .peerForget ++
  dueIf (decide (s.stc.state = .active) && decide (s.psi.tx = .deferring) && !s.psi.mediumBusy &&
    decide (Config.interBulletinGap ≤ s.psi.gapTimer)) .attemptStart ++
  dueIf (decide (s.psi.tx = .backoff) && decide (s.psi.backoffDelay * Config.slotTime ≤ s.psi.backoffTimer)) .backoffEnd ++
  dueIf (s.stc.state.receives && s.psi.handed.isSome) (.usageApply .clean) ++
  dueIf (s.stc.state.receives && !s.psi.fifo.isEmpty) (.bulletinFilter .clean) ++
  dueIf (s.operates && !s.uvu.reports.isEmpty) (.dirtyReport .clean) ++
  dueIf (s.stc.state.receives && s.uvu.walk.isSome) (.purgeVisit .clean) ++
  dueIf s.walkerDue (.walkerExpiry .clean)

/-- The reply timer of a place has reached its limit (R161). -/
def Place.replyLate (p : Place) : Bool :=
  match p.state with
  | .awaiting (some t) => decide (Config.replyLimit ≤ t)
  | _ => false

/-- The BUSY wait of a place has ended (R160). -/
def Place.busyDone (p : Place) : Bool :=
  match p.state with
  | .busyWait t => decide (Config.second ≤ t)
  | _ => false

/-- Steps of CJU and ODU. -/
def State.dueOffsite (s : State) : List Instr :=
  dueIf s.stc.windowMoment (.windowStart .clean) ++
  dueIf (decide (s.cju.windowLeft = some 0)) (.windowEnd .clean) ++
  dueIf (s.cju.report.isSome && s.canHand .report) (.nightReport .clean) ++
  dueIf (!s.odu.completions.isEmpty && !s.batchFull) (.copyCompletion .clean) ++
  dueIf (s.stagingWanted && s.canHand .staging) (.takeForStaging .clean) ++
  ((List.range s.odu.slots.length).filter s.stagingLate).map (fun i => .stagingTimeout i .clean) ++
  dueIf (s.secondDue && !s.odu.linkUp) .helloSend ++
  dueIf (s.secondDue && s.odu.linkUp) .idleSend ++
  dueIf (s.mayCopy && s.odu.sendHead.isSome) (.copySend .clean) ++
  (s.odu.places.filter Place.replyLate).map (fun p => .replyTimeout p.slot .clean) ++
  (s.odu.places.filter Place.busyDone).map (fun p => .busyWaitEnd p.slot) ++
  dueIf (s.hears && decide (Config.linkSilenceLimit ≤ s.odu.silenceTimer)) (.linkSilenceTimeout .clean) ++
  dueIf (decide (Config.millisecond ≤ s.odu.tokenTimer)) .tokenGain

/-- The steps that are due. In LOADING there are none, and in HALTED only the clock's: the expiry and window moments pass
without an event there. -/
def State.due (s : State) : List Instr :=
  match s.stc.state with
  | .loading => []
  | .halted => dueIf (decide (s.stc.clock.second + 1 = Config.daySeconds) && decide (Config.second ≤ s.stc.clock.phase))
      .clockRollover
  | _ => s.dueTables ++ s.dueOffsite ++ s.dueCampus ++ s.dueStart ++ s.dueCommands

/-- The part with no step waiting: a cycle passes, and the steps then due join the queue. -/
def State.idle (s : State) : State := { s.advance with pending := s.pending ++ s.advance.due }

end Sys2Proof.Machine
end

