-- ==== Sys2Proof/Safety.lean ====
section
/-! DEFINITION. What counts as a safe state: the laws of the device that its steps keep, and the words in which the statements
speak of a command that is offered to its unit and of its answer. -/

namespace Sys2Proof.Machine

/-! ### Laws of the device -/

/-- The Catalogue holds at most 64 records, epochs strictly ascending, all at or below K (R52, R54). -/
def State.catalogueLaw (s : State) : Prop :=
  s.scu.catalogue.length ≤ Config.catalogueCapacity ∧
  (s.scu.catalogue.map SnapRec.epoch).Pairwise (· < ·) ∧
  ∀ r ∈ s.scu.catalogue, r.epoch ≤ s.scu.current

/-- Every list of fixed capacity keeps within it, and every table of fixed size keeps its size (R3, R46, R75, R101, R106, R121,
R147, R157, R171, R176). -/
def State.capacityLaw (s : State) : Prop :=
  s.cqp.notices.length ≤ Config.noticeCapacity ∧
  s.cqp.ringU.inProgress.length ≤ Config.ringUDepth ∧
  s.cqp.ringB.inProgress.length ≤ Config.ringBDepth ∧
  s.xtu.batch.length ≤ Config.batchLimit ∧
  s.psi.fifo.length ≤ Config.fifoCapacity ∧
  s.uvu.dirtyList.length ≤ Config.dirtyCapacity ∧
  s.odu.places.length ≤ Config.placeCapacity ∧
  s.rcu.contexts.length = 8 ∧ s.odu.slots.length = 8 ∧ s.psi.peers.length = 16 ∧ s.qsu.classes.length = 16

/-- Both addressed memories keep their canonical form. -/
def State.memoryLaw (s : State) : Prop := Memory.wf s.staging = true ∧ Memory.wf s.host = true

/-- The own egress share never exceeds the cap or the own demand, it is 0 outside the night window, in MUTE and while the link
is DOWN, and the tokens lie within the bucket (R164, R165). A report is built only in SETTLING (R142), which is what keeps a
hand-over from closing an open window. -/
def State.egressLaw (s : State) : Prop :=
  s.odu.ownShare ≤ s.config.egressCap ∧
  s.odu.ownShare ≤ s.odu.ownDemand ∧
  (s.odu.ownShare ≠ 0 → s.cju.window = .opened ∧ s.odu.linkUp = true ∧ s.operates = true ∧ s.stc.state ≠ .mute) ∧
  s.odu.tokens ≤ bucketDepth s.odu.ownShare * 1000 ∧
  (s.cju.report.isSome = true → s.cju.window = .settling)

/-- Outside ACTIVE the transmitter is IDLE and the holding slots are empty (R95). -/
def State.silenceLaw (s : State) : Prop :=
  s.stc.state ≠ .active →
    s.psi.snapcall = none ∧ s.psi.beacon = none ∧ s.psi.usage = none ∧ s.psi.tx = .idle ∧ s.psi.attempt = none

/-- The entries of a command ring in progress are those of the positions just behind the fetch position, in ring order (R171). -/
def RingState.behindFetch (x : RingState) : Prop :=
  x.fetch < Config.commandRingSize ∧
  ∀ i e, x.inProgress[i]? = some e →
    e.position < Config.commandRingSize ∧ (e.position + (x.inProgress.length - i)) % Config.commandRingSize = x.fetch

/-- Both rings keep their positions, and Ring U has no command before REBUILD or LISTENING (R171). -/
def State.ringLaw (s : State) : Prop :=
  s.cqp.ringU.behindFetch ∧ s.cqp.ringB.behindFetch ∧
  (s.stc.state = .loading ∨ s.stc.state = .stopped → s.cqp.ringU.inProgress = [])

/-- A state in which the laws of the device hold. -/
def State.lawful (s : State) : Prop :=
  s.catalogueLaw ∧ s.capacityLaw ∧ s.memoryLaw ∧ s.ringLaw ∧ s.egressLaw ∧ s.silenceLaw

/-! ### Commands and their answers -/

/-- Ring B's one command in progress is `c`, untaken, in a state that accepts it. -/
def State.offersB (s : State) (e : InProgress) (c : HostCommand) : Prop :=
  s.cqp.ringB.inProgress = [e] ∧ e.command = some c ∧ e.phase = .untaken ∧ acceptedIn c s.stc.state = true

/-- Ring U's list is `before`, the command `e` and `after`; `e` is `c`, the first that XTU has not taken, in a state that accepts
it (R35), and no other entry comes from its ring position. -/
def State.offersU (s : State) (before : List InProgress) (e : InProgress) (after : List InProgress) (c : HostCommand) : Prop :=
  s.cqp.ringU.inProgress = before ++ e :: after ∧ (∀ x ∈ before, x.phase ≠ .untaken) ∧ e.phase = .untaken ∧
  e.command = some c ∧ acceptedIn c s.stc.state = true ∧ ∀ x ∈ before ++ after, x.position ≠ e.position

/-- Ring U's in-progress list is replaced. -/
def State.withListU (s : State) (l : List InProgress) : State :=
  { s with cqp := { s.cqp with ringU := { s.cqp.ringU with inProgress := l } } }

/-- A Ring U command as settled, with an outcome, the two flags and its items (R179). -/
def settledU (e : InProgress) (o : OutcomeCode) (provisional overSoft : Bool) (items : List Item) : InProgress :=
  { e with phase := .settled ⟨e.kind, .u, e.position, e.request, o, provisional, overSoft, items⟩ }

/-- Ring B's one command in progress takes a phase. -/
def State.withPhaseB (s : State) (e : InProgress) (p : Phase) : State :=
  { s with cqp := { s.cqp with ringB := { s.cqp.ringB with inProgress := [{ e with phase := p }] } } }

/-- Ring B's one command in progress is settled, with an outcome, the two flags and its items (R179). -/
def State.answered (s : State) (e : InProgress) (o : OutcomeCode) (provisional overSoft : Bool) (items : List Item) : State :=
  s.withPhaseB e (.settled ⟨e.kind, .b, e.position, e.request, o, provisional, overSoft, items⟩)

/-- Ring B's one command in progress is settled DONE, or refused with an outcome, and carries no flag. -/
def State.done (s : State) (e : InProgress) (items : List Item) : State := s.answered e .done false false items

def State.refusedWith (s : State) (e : InProgress) (o : OutcomeCode) : State := s.answered e o false false []

/-- From one state to the next exactly one owner record was accessed: it is now `r`, every other record and every class is as
it was, and the owner is reported to UVU exactly when its C has changed, outside REBUILD (R6, R7, R8). -/
def accessedTo (s t : State) (o : Nat) (r : OwnerRec) : Prop :=
  t.owner o = r ∧ (∀ p, p ≠ o → t.owner p = s.owner p) ∧ t.qsu.classes = s.qsu.classes ∧
  t.uvu = { s.uvu with reports :=
    if s.operates = true ∧ s.chargeable (s.opened o) ≠ s.chargeable r then s.uvu.reports ++ [o] else s.uvu.reports }

/-- The station has halted for a reason, from a state: HALTED is raised and kept with its reason, a TABLE halt clears the
marker, the segment and the link fall silent, and no table is written (R113, R167, R195). -/
def haltedFrom (s t : State) (r : HaltReason) : Prop :=
  t.stc.state = .halted ∧ t.stc.haltReason = some r ∧ t.stc.marker = (s.stc.marker && decide (r = .ring)) ∧
  t.cqp.causes = s.cqp.causes ||| Cause.halted.bit ∧
  t.psi.snapcall = none ∧ t.psi.beacon = none ∧ t.psi.usage = none ∧ t.psi.tx = .idle ∧ t.odu.linkUp = false ∧
  t.odu.ownShare = 0 ∧ t.odu.tokens = 0 ∧
  t.qsu = s.qsu ∧ t.xtu = s.xtu ∧ t.scu = s.scu ∧ t.rcu = s.rcu ∧ t.cju = s.cju ∧ t.staging = s.staging ∧ t.host = s.host

/-! ### The steps that are due -/

/-- The part takes a step of itself, or serves a command it holds, when no step waits: one whose condition the state meets. In
LOADING there is none, and in HALTED only the clock's roll-over (R193, R195). A step so taken meets clean table memory, takes the
counts of a beacon tick before the share, and the whole of a context (assumption 1). -/
def stepDue (s : State) (i : Instr) : Prop :=
  let works := s.stc.state ∈ [.listening, .active, .mute]
  let hears := s.stc.state ∈ [.rebuild, .listening, .active, .mute]
  let passed := fun (limit : Nat) (timer : Option Nat) => ∃ n, timer = some n ∧ limit ≤ n
  let held := fun c : HostCommand => ∃ e ∈ s.cqp.ringU.inProgress ++ s.cqp.ringB.inProgress,
    (e.phase = .untaken ∨ e.phase = .working) ∧ e.command = some c
  let cleaned := fun owner peer : Nat => (∀ x ∈ s.xtu.extents, x.2.state ≠ .reserved) ∧ 65536 ≤ owner ∧
    (∀ x ∈ s.cju.frozen, x.step = .waiting) ∧ 16 ≤ peer
  let toCopy := s.stc.state = .active ∧ s.odu.linkUp = true ∧ s.cju.window = .opened
  let idleLink := s.odu.sending = none ∧ 25000000 ≤ s.odu.sendTimer
  s.stc.state ≠ .loading ∧ (s.stc.state = .halted → i = .clockRollover) ∧
  match i with
  | .charge h o v l ecc => ecc = .clean ∧ held (.charge h o v l)
  | .release h ecc => ecc = .clean ∧ held (.release h)
  | .start m n d x ecc => ecc = .clean ∧ held (.start m n d x)
  | .rebuildDone ecc => ecc = .clean ∧ held .rebuildDone
  | .loadOwner o c so ha g ecc => ecc = .clean ∧ held (.loadOwner o c so ha g)
  | .loadSnapshot e d x r g ecc => ecc = .clean ∧ held (.loadSnapshot e d x r g)
  | .loadExtent h o v l st b d c ecc => ecc = .clean ∧ held (.loadExtent h o v l st b d c)
  | .setClock d x ecc => ecc = .clean ∧ held (.setClock d x)
  | .setLimits o so ha w ecc => ecc = .clean ∧ held (.setLimits o so ha w)
  | .setOwnerClass o c ecc => ecc = .clean ∧ held (.setOwnerClass o c)
  | .setClass c g w p => held (.setClass c g w p)
  | .callSnapshot r g ecc => ecc = .clean ∧ held (.callSnapshot r g)
  | .expireSnapshot e ecc => ecc = .clean ∧ held (.expireSnapshot e)
  | .protectGroup g ecc => ecc = .clean ∧ held (.protectGroup g)
  | .unprotectGroup g ecc => ecc = .clean ∧ held (.unprotectGroup g)
  | .restoreOpen e o v t ecc => ecc = .clean ∧ held (.restoreOpen e o v t)
  | .restoreItem c t x h v ecc => ecc = .clean ∧ held (.restoreItem c t x h v)
  | .restoreCommit c t n ecc => ecc = .clean ∧ n = 512 ∧ held (.restoreCommit c t)
  | .restoreAbort c t n ecc => ecc = .clean ∧ n = 512 ∧ held (.restoreAbort c t)
  | .staged x h ecc => ecc = .clean ∧ held (.staged x h)
  | .stageFailed x h ecc => ecc = .clean ∧ held (.stageFailed x h)
  | .inspectOwner o ecc => ecc = .clean ∧ held (.inspectOwner o)
  | .inspectSnapshots e ecc => ecc = .clean ∧ held (.inspectSnapshots e)
  | .inspectPeers p o ecc => ecc = .clean ∧ held (.inspectPeers p o)
  | .inspectNight ecc => ecc = .clean ∧ held .inspectNight
  | .chargeAdmission position ecc => ecc = .clean ∧
      ∃ e ∈ s.cqp.ringU.inProgress, e.position = position ∧ ∃ blocks, e.phase = .claimed blocks
  | .restoreItemAdmission ecc => ecc = .clean ∧ ∃ e rest c t x h v n, s.cqp.ringB.inProgress = e :: rest ∧
      e.command = some (.restoreItem c t x h v) ∧ e.phase = .claimed n
  | .tableEmptyingEnd ecc => ecc = .clean ∧ s.stc.work = .emptying
  | .cleanupWalkStep ecc => ecc = .clean ∧ ∃ o p, s.stc.work = .cleaning o p ∧ ¬ cleaned o p
  | .cleanupWalkEnd ecc => ecc = .clean ∧ ∃ o p, s.stc.work = .cleaning o p ∧ cleaned o p
  | .checkWalkVisit ecc => ecc = .clean ∧ ∃ h left d m, s.stc.work = .checking (h :: left) d m
  | .checkWalkEnd ecc => ecc = .clean ∧ ∃ d m, s.stc.work = .checking [] d m
  | .clockRollover => s.stc.clock.second + 1 = 86400 ∧ 25000000 ≤ s.stc.clock.phase
  | .expiryPass ecc => ecc = .clean ∧ s.stc.expiryMoment = true
  | .sweepVisit ecc => ecc = .clean ∧ works ∧ s.xtu.sweep.state = .running
  | .reclaimBatchTimeout ecc => ecc = .clean ∧ s.xtu.batch ≠ [] ∧ s.xtu.batchWaiting = false ∧ 25000000 ≤ s.xtu.batchTimer
  | .reclaimBatchPost ecc => ecc = .clean ∧ s.xtu.batchWaiting = true ∧ s.canHand .reclaim = true
  | .idleExpiry x n ecc => ecc = .clean ∧ n = 512 ∧ ∃ c, s.rcu.contexts[x]? = some c ∧ c.state ≠ .free ∧
      passed (s.config.idleTimeout * 25000000) c.idle
  | .beaconTick tick => tick = ⟨false, .clean⟩ ∧ works ∧ passed (s.config.beaconInterval * 25000000) s.psi.beaconTimer
  | .peerForget p => works ∧ p ≠ s.stc.stationNumber ∧ 0 < s.config.forgetLimit ∧ ∃ x, s.psi.peers[p]? = some x ∧
      x.state = .silent ∧ s.config.forgetLimit * 60 * 25000000 ≤ x.forgetTimer
  | .attemptStart => s.stc.state = .active ∧ s.psi.tx = .deferring ∧ s.psi.mediumBusy = false ∧ 240 ≤ s.psi.gapTimer
  | .backoffEnd => s.psi.tx = .backoff ∧ s.psi.backoffDelay * 1280 ≤ s.psi.backoffTimer
  | .usageApply ecc => ecc = .clean ∧ hears ∧ s.psi.handed ≠ none
  | .bulletinFilter ecc => ecc = .clean ∧ hears ∧ s.psi.fifo ≠ []
  | .dirtyReport ecc => ecc = .clean ∧ works ∧ s.uvu.reports ≠ []
  | .purgeVisit ecc => ecc = .clean ∧ hears ∧ s.uvu.walk ≠ none
  | .walkerExpiry ecc => ecc = .clean ∧ s.stc.state = .active ∧ passed (s.config.walkerInterval * 25000) s.uvu.walkerTimer
  | .windowStart ecc => ecc = .clean ∧ s.stc.windowMoment = true
  | .windowEnd ecc => ecc = .clean ∧ s.cju.windowLeft = some 0
  | .nightReport ecc => ecc = .clean ∧ s.cju.report ≠ none ∧ s.canHand .report = true
  | .copyCompletion ecc => ecc = .clean ∧ s.odu.completions ≠ [] ∧ s.xtu.batch.length < 16
  | .takeForStaging ecc => ecc = .clean ∧ toCopy ∧ (∃ x ∈ s.odu.slots, x.state = .free) ∧
      (∃ x ∈ s.cju.frozen, x.step = .waiting) ∧ s.canHand .staging = true
  | .stagingTimeout x ecc => ecc = .clean ∧ ∃ slot, s.odu.slots[x]? = some slot ∧ slot.state = .staging ∧
      passed (120 * 25000000) slot.timer
  | .helloSend => works ∧ s.odu.linkUp = false ∧ idleLink
  | .idleSend => works ∧ s.odu.linkUp = true ∧ idleLink
  | .copySend ecc => ecc = .clean ∧ toCopy ∧ s.odu.sending = none ∧ s.odu.sendTimer < 25000000 ∧
      (s.odu.resends ≠ [] ∨ s.odu.readyOrder ≠ [])
  | .replyTimeout slot ecc => ecc = .clean ∧ ∃ p ∈ s.odu.places, p.slot = slot ∧ ∃ n, p.state = .awaiting (some n) ∧ 2 * 25000000 ≤ n
  | .busyWaitEnd slot => ∃ p ∈ s.odu.places, p.slot = slot ∧ ∃ n, p.state = .busyWait n ∧ 25000000 ≤ n
  | .linkSilenceTimeout ecc => ecc = .clean ∧ works ∧ s.odu.linkUp = true ∧ 10 * 25000000 ≤ s.odu.silenceTimer
  | .tokenGain => 25000 ≤ s.odu.tokenTimer
  | _ => False

/-! ### Table faults -/

/-- The step as table memory answers it, for every row that works on table memory in one event; the three rows that end a
context take the error at the item it meets (R85, R91). -/
def underEcc (ecc : Ecc) (i : Instr) : Option Instr :=
  match i with
  | .charge h o v l _ => some (.charge h o v l ecc)
  | .chargeAdmission n _ => some (.chargeAdmission n ecc)
  | .dirtyReport _ => some (.dirtyReport ecc)
  | .release h _ => some (.release h ecc)
  | .sweepVisit _ => some (.sweepVisit ecc)
  | .reclaimBatchTimeout _ => some (.reclaimBatchTimeout ecc)
  | .reclaimBatchPost _ => some (.reclaimBatchPost ecc)
  | .start m n d x _ => some (.start m n d x ecc)
  | .tableEmptyingEnd _ => some (.tableEmptyingEnd ecc)
  | .cleanupWalkStep _ => some (.cleanupWalkStep ecc)
  | .cleanupWalkEnd _ => some (.cleanupWalkEnd ecc)
  | .rebuildDone _ => some (.rebuildDone ecc)
  | .checkWalkVisit _ => some (.checkWalkVisit ecc)
  | .checkWalkEnd _ => some (.checkWalkEnd ecc)
  | .loadOwner o c so ha g _ => some (.loadOwner o c so ha g ecc)
  | .loadSnapshot e d x r g _ => some (.loadSnapshot e d x r g ecc)
  | .loadExtent h o v l st b d c _ => some (.loadExtent h o v l st b d c ecc)
  | .setClock d x _ => some (.setClock d x ecc)
  | .setLimits o so ha w _ => some (.setLimits o so ha w ecc)
  | .setOwnerClass o c _ => some (.setOwnerClass o c ecc)
  | .callSnapshot r g _ => some (.callSnapshot r g ecc)
  | .expireSnapshot e _ => some (.expireSnapshot e ecc)
  | .protectGroup g _ => some (.protectGroup g ecc)
  | .unprotectGroup g _ => some (.unprotectGroup g ecc)
  | .restoreOpen e o v t _ => some (.restoreOpen e o v t ecc)
  | .restoreItem c t x h v _ => some (.restoreItem c t x h v ecc)
  | .restoreItemAdmission _ => some (.restoreItemAdmission ecc)
  | .staged x h _ => some (.staged x h ecc)
  | .stageFailed x h _ => some (.stageFailed x h ecc)
  | .inspectOwner o _ => some (.inspectOwner o ecc)
  | .inspectSnapshots e _ => some (.inspectSnapshots e ecc)
  | .inspectPeers st o _ => some (.inspectPeers st o ecc)
  | .inspectNight _ => some (.inspectNight ecc)
  | .expiryPass _ => some (.expiryPass ecc)
  | .beaconTick tick => some (.beaconTick { tick with ecc := ecc })
  | .peerSilence p tick => some (.peerSilence p { tick with ecc := ecc })
  | .enterActive tick => some (.enterActive { tick with ecc := ecc })
  | .bulletinFilter _ => some (.bulletinFilter ecc)
  | .usageApply _ => some (.usageApply ecc)
  | .purgeVisit _ => some (.purgeVisit ecc)
  | .walkerExpiry _ => some (.walkerExpiry ecc)
  | .windowStart _ => some (.windowStart ecc)
  | .windowEnd _ => some (.windowEnd ecc)
  | .nightReport _ => some (.nightReport ecc)
  | .copyCompletion _ => some (.copyCompletion ecc)
  | .takeForStaging _ => some (.takeForStaging ecc)
  | .stagingTimeout x _ => some (.stagingTimeout x ecc)
  | .copySend _ => some (.copySend ecc)
  | .readyFrame _ => some (.readyFrame ecc)
  | .ack h n c _ => some (.ack h n c ecc)
  | .nak h n r _ => some (.nak h n r ecc)
  | .replyTimeout x _ => some (.replyTimeout x ecc)
  | .lossOfSignal _ => some (.lossOfSignal ecc)
  | .linkSilenceTimeout _ => some (.linkSilenceTimeout ecc)
  | _ => none

/-- Table memory holds the same: the Owner Table with its contribution lists, the Extent Table and Held List, the Catalogue with
K and the protected-group set, the count of the pool, the journal with the night number, and the staged data (R25, R49, R72,
R128, R144, R147). -/
def sameTables (s t : State) : Prop :=
  t.qsu.owners = s.qsu.owners ∧ t.xtu.extents = s.xtu.extents ∧ t.xtu.heldList = s.xtu.heldList ∧
  t.scu.catalogue = s.scu.catalogue ∧ t.scu.current = s.scu.current ∧ t.scu.protectedSet = s.scu.protectedSet ∧
  t.uvu.poolInUse = s.uvu.poolInUse ∧ t.cju.openGen = s.cju.openGen ∧ t.cju.frozen = s.cju.frozen ∧
  t.cju.nightNumber = s.cju.nightNumber ∧ t.staging = s.staging

/-- A step has met a table fault: the station is HALTED with reason TABLE and the marker clear, HALTED is raised, and no table, no
command in progress and no report or walk under way is touched; highest heard, which is on chip, may have risen (R195). -/
def tableHalt (s t : State) : Prop :=
  t.stc.state = .halted ∧ t.stc.haltReason = some .table ∧ t.stc.marker = false ∧
  t.cqp = { s.cqp with causes := s.cqp.causes ||| Cause.halted.bit } ∧ t.qsu = s.qsu ∧ t.xtu = s.xtu ∧
  { t.scu with highestHeard := s.scu.highestHeard } = s.scu ∧ t.rcu = s.rcu ∧ t.uvu = { s.uvu with walkerTimer := none } ∧
  t.cju = s.cju ∧ t.staging = s.staging ∧ t.host = s.host ∧ sameTables s t

/-! ### The purge requests -/

/-- What UVU becomes where no walk runs: the waiting request of the lowest-numbered station that has one is taken, its ALL request
before its STALE one, and leaves the waiting set (R118). -/
def walkTaken (u t : Uvu) : Prop :=
  let waits := fun p => p ∈ u.allRequests ∨ ∃ target, tableFind p u.staleRequests = some target
  ((∀ p, p < 16 → ¬ waits p) → t = { u with walk := none }) ∧
  ∀ p, p < 16 → (∀ q, q < p → ¬ waits q) →
    (p ∈ u.allRequests →
      t = { u with allRequests := u.allRequests.filter fun q => decide (q ≠ p), walk := some ⟨p, .all, 0⟩ }) ∧
    ∀ target, p ∉ u.allRequests → tableFind p u.staleRequests = some target →
      t = { u with staleRequests := tableErase p u.staleRequests, walk := some ⟨p, .stale target, 0⟩ }

/-! ### The sweep and the egress share -/

/-- What XTU's state and the port become when a record leaves the Catalogue (R41, R44): with a sweep under way the sweep-again
flag is set; from IDLE a sweep starts over the whole Held List, and on an empty list it ends at once, its batch posted where the
queue has room and else PAUSED on it. -/
def sweepSignalled (s : State) (xtu : Xtu) (cqp : Cqp) : Prop :=
  (s.xtu.sweep.state ≠ .idle → xtu = { s.xtu with sweep := { s.xtu.sweep with again := true } } ∧ cqp = s.cqp) ∧
  (s.xtu.sweep.state = .idle → s.xtu.heldList ≠ [] →
    xtu = { s.xtu with sweep := ⟨.running, s.xtu.heldList, false⟩ } ∧ cqp = s.cqp) ∧
  (s.xtu.sweep.state = .idle → s.xtu.heldList = [] → s.xtu.batch = [] →
    xtu = { s.xtu with sweep := ⟨.idle, [], false⟩ } ∧ cqp = s.cqp) ∧
  (s.xtu.sweep.state = .idle → s.xtu.heldList = [] → s.xtu.batch ≠ [] →
    (s.canHand .reclaim = true →
      xtu = { s.xtu with batch := [], batchTimer := 0, batchWaiting := false, sweep := ⟨.idle, [], false⟩ } ∧
      cqp = { s.cqp with
        notices := s.cqp.notices ++ [.reclaim s.xtu.batch], waiting := s.cqp.waiting.filter fun v => decide (v ≠ .reclaim) }) ∧
    (s.canHand .reclaim = false →
      xtu = { s.xtu with batchWaiting := true, sweep := { s.xtu.sweep with state := .paused, range := [] } } ∧
      cqp = { s.cqp with waiting := (s.await .reclaim).cqp.waiting }))

/-- What they become when several records leave the Catalogue in one event, each signalling (R41): after the first signal, a sweep
that is then under way has its sweep-again flag set, and none is needed where it has ended at once. -/
def sweepSignalledBy (s : State) (removed : Nat) (xtu : Xtu) (cqp : Cqp) : Prop :=
  (removed = 0 → xtu = s.xtu ∧ cqp = s.cqp) ∧
  (removed ≠ 0 → ∃ first, sweepSignalled s first cqp ∧
    xtu = if 2 ≤ removed ∧ first.sweep.state ≠ .idle then { first with sweep := { first.sweep with again := true } } else first)

/-- An own demand, an own share and tokens are those of R163, R164 and R165 for a state's journal, window, link and Station Table:
the demand is the frozen blocks over the seconds left, rounded up, at most the link maximum; the askers are this station and the
PRESENT peers whose beacons ask by night, in ascending demand and then station number; and the share is the own allocation of
their fair-share fill under the cap. -/
def shareComputed (s : State) (o : Odu) : Prop :=
  let none_ := s.cju.window ≠ .opened ∨ s.stc.state = .mute ∨ s.odu.linkUp = false ∨ ∀ e ∈ s.cju.frozen, e.step = .inFlight
  let blocks := (s.cju.frozen.map FrozenEntry.length).sum
  let left := max 1 ((s.cju.windowLeft.getD 0) / Config.second)
  (none_ → o.ownDemand = 0) ∧
  (¬ none_ → ∃ d, d * left < blocks + left ∧ blocks ≤ d * left ∧
    o.ownDemand = if d < s.config.linkMaximum then d else s.config.linkMaximum) ∧
  (s.cju.window ≠ .opened → o.ownShare = 0) ∧
  (s.cju.window = .opened → ∃ askers : List (Nat × Nat),
    askers.Pairwise (fun x y => x.2 < y.2 ∨ x.2 = y.2 ∧ x.1 < y.1) ∧
    (∀ p d, (p, d) ∈ askers ↔
      p = s.stc.stationNumber ∧ d = o.ownDemand ∧ 0 < d ∨
      p ≠ s.stc.stationNumber ∧ ∃ x b, s.psi.peers[p]? = some x ∧ x.state = .present ∧ x.beacon = some b ∧ b.night = true ∧
        0 < b.demand ∧ d = min s.config.egressCap b.demand) ∧
    (s.stc.stationNumber ∉ askers.map Prod.fst → o.ownShare = 0) ∧
    ∀ n, (s.stc.stationNumber, n) ∈ fairFill s.config.egressCap askers → o.ownShare = n) ∧
  o.tokens = min s.odu.tokens (1000 * max (2 * o.ownShare) 256)

end Sys2Proof.Machine
end

