-- ==== Sys2Proof/Certificates/Slice0/Obligations.lean ====
section
/-! DEFINITION. The statements about the machine: what each step does, by the rules of the manual, and the laws every step keeps. -/

open Sys2Proof Sys2Proof.Machine

/-! ### The step -/

/-- A step takes the step at the front of the queue and runs it on the state with the queue's rest. -/
def Obligations.StepRunsTheFrontCommand : Prop :=
  ∀ (c : Instr) (rest : List Instr) (s : State), s.pending = c :: rest → step s = exec c { s with pending := rest }

/-- No step's own effect touches the queue: whatever a step does, a reset among them, the waiting steps are as they were. The
queue is the model's own, and that a reset leaves it is its choice (assumption 4). -/
def Obligations.ExecLeavesTheQueue : Prop :=
  ∀ (c : Instr) (s t : State), exec c s = .next t → t.pending = s.pending

/-- With an empty queue a cycle of the reference passes (the model's choice, assumption 1): the steps then due are queued, and
those are the steps whose condition of `stepDue` holds in the state the cycle leaves. In LOADING nothing runs (R193). Elsewhere
the Station Clock moves on, to the next second when its last cycle has passed, and notes the expiry minute and the night start
when it so reaches them (R63, R134); its last second of a day waits at its end for the roll-over. Of the timers, those of the
backoff and the gap run with their own state; in HALTED no other runs. The batch second, the window, the staging deadlines and the
millisecond of the tokens run in every other state; the beacon tick, the idle deadlines, the forget timers and the link's and the
replies' timers in LISTENING, ACTIVE and MUTE; the walker's in ACTIVE; and the 100 µs of a full Response Ring where responses are
written. The order of the steps due in one cycle is the model's choice (assumption 1), and so are that a tick so queued takes the
silence counts before the share (assumption 8), that the gap and the echo mark are kept by cycles (assumptions 22 and 29), that a
fraction of a second is kept with the clock (assumption 17), and that the millisecond of the tokens runs freely (assumption 31).
-/
def Obligations.IdleStepPassesOneCycle : Prop :=
  ∀ s : State, s.pending = [] → ∃ t, step s = .next t ∧ t.pending = s.advance.due ∧ (∀ i, i ∈ t.pending ↔ stepDue t i) ∧
    (s.stc.state = .loading → t = s) ∧
    (s.stc.state ≠ .loading →
      let clock := s.stc.clock
      let now : Clock :=
        if clock.phase + 1 < 25000000 then { clock with phase := clock.phase + 1 }
        else if clock.second + 1 < 86400 then ⟨clock.day, clock.second + 1, 0⟩
        else { clock with phase := 25000000 }
      let runs := decide (s.stc.state ≠ .halted)
      let works := decide (s.stc.state ∈ [.listening, .active, .mute])
      let count := fun (on : Bool) (n : Nat) => if on = true then n + 1 else n
      { t with pending := [] } = { s with
        stc := { s.stc with
          clock := now
          expiryMoment := s.stc.expiryMoment || decide (now.second ≠ clock.second ∧ now.second = 60 * s.config.expiryMinute)
          windowMoment := s.stc.windowMoment || decide (now.second ≠ clock.second ∧ now.second = 60 * s.config.nightStart) }
        cqp := { s.cqp with
          pollTimer := count (decide (s.stc.state ∉ [.loading, .halted] ∧ s.cqp.base ≠ none ∧
            (s.cqp.write + 1) % 512 = s.cqp.lastConsumer)) s.cqp.pollTimer }
        xtu := { s.xtu with batchTimer := count (runs && decide (s.xtu.batch ≠ [])) s.xtu.batchTimer }
        rcu := { s.rcu with contexts := s.rcu.contexts.zipIdx.map fun x =>
          { x.1 with idle := x.1.idle.map (count (works && decide (∀ w, s.rcu.work = some w → w.context ≠ x.2))) } }
        psi := { s.psi with
          beaconTimer := s.psi.beaconTimer.map (count works)
          peers := s.psi.peers.map fun x => { x with
            forgetTimer := count (works && decide (0 < s.config.forgetLimit ∧ x.state = .silent)) x.forgetTimer }
          backoffTimer := count (decide (s.psi.tx = .backoff)) s.psi.backoffTimer
          gapTimer := if s.psi.mediumBusy = true ∨ s.psi.tx = .sending then 0 else min 240 (s.psi.gapTimer + 1)
          justSent := none }
        uvu := { s.uvu with walkerTimer := s.uvu.walkerTimer.map (count (decide (s.stc.state = .active))) }
        cju := { s.cju with windowLeft := s.cju.windowLeft.map fun left => if runs = true then left - 1 else left }
        odu := { s.odu with
          slots := s.odu.slots.map fun x => { x with timer := x.timer.map (count runs) }
          places := s.odu.places.map fun p => { p with state := match p.state with
            | .awaiting timer => .awaiting (timer.map (count works))
            | .busyWait timer => .busyWait (count works timer)
            | .resendDue => .resendDue }
          silenceTimer := count (works && s.odu.linkUp) s.odu.silenceTimer
          sendTimer := count works s.odu.sendTimer
          tokenTimer := count runs s.odu.tokenTimer } })

/-! ### The window -/

/-- QUEUE_BASE in STOPPED with no Ring B command in progress sets the base with its low 12 bits taken as 0, returns every position
of the rings to 0 and the notify flags to clear, and writes 0 to the station's three indices and no other byte; where the DMA
write of an index fails the station enters HALTED with reason RING (R180), and that no byte of the block counts as written then is
the model's choice (assumption 21), as it is its reading that what no chapter names stays as it was at entry to HALTED (assumption
20). In any other state, or with a command in progress, the write is ignored. That a read under way is dropped is the model's
choice (assumption 14). -/
def Obligations.QueueBaseSetsTheBlock : Prop :=
  ∀ (v : Nat) (s : State),
    (s.stc.state = .stopped → s.cqp.ringB.inProgress = [] →
      ∃ base : Nat, base % 4096 = 0 ∧ base ≤ v ∧ v < base + 4096 ∧
        let port := { s.cqp with
          base := some base
          ringU := ⟨0, 0, false, false, s.cqp.ringU.inProgress⟩
          ringB := ⟨0, 0, false, false, []⟩
          write := 0
          lastConsumer := 0
          consecutiveU := 0
          noticeCount := 0
          pollTimer := 0
          roomWait := false }
        (∃ t : State, exec (.queueBase v .done) s = .next t ∧ t = { s with cqp := port, host := t.host } ∧
          ∀ a, memRead t.host a =
            if (base + 0x44 ≤ a ∧ a < base + 0x48) ∨ (base + 0x4C ≤ a ∧ a < base + 0x50) ∨ (base + 0x50 ≤ a ∧ a < base + 0x54)
            then 0 else memRead s.host a) ∧
        ∃ t : State, exec (.queueBase v .failed) s = .next t ∧ haltedFrom s t .ring ∧
          t.cqp = { port with causes := s.cqp.causes ||| Cause.halted.bit }) ∧
    (s.stc.state ≠ .stopped ∨ s.cqp.ringB.inProgress ≠ [] → ∀ dma, exec (.queueBase v dma) s = .next s)

/-- NOTIFY_U, NOTIFY_B, ATTENTION_RELEASE and UNMAPPED_WRITE. A notify that is acted on begins a read of its ring's producer
index, or is kept for one more read where one is under way; a release of a posted record deasserts INT_N and leaves the causes
pending; that the three make a full Response Ring's room due to be looked for, and do not look themselves, is the model's choice
(assumption 14). Each is ignored in the states R168 names, and a write to any other location always; the offsets of R197 give the
step a write makes and what a read answers, and that an offset inside a location but not at its start is no location is the
model's choice (assumption 49). STAGING_WINDOW_WRITE lands in the data areas at once, in every state, and changes no other byte
and nothing else; a read returns them as they stand, with 0xFF in every byte of a word with an uncorrectable error, a word being
32 bits by the model's choice (assumption 39). That a write past the last offset of the window stops with the fault of that name
is the model's choice (assumption 26). -/
def Obligations.WindowWritesAct : Prop :=
  ((∀ (v : Nat) (s : State), (s.stc.state = .rebuild ∨ s.operates = true) → s.cqp.base.isSome = true →
    exec (.notifyU v) s = .next { s with cqp := { s.cqp with
      ringU := { s.cqp.ringU with notify := s.cqp.ringU.reading, reading := true }
      pollTimer := if s.responseFull = true then Config.roomPoll else s.cqp.pollTimer } }) ∧
  (∀ (v : Nat) (s : State), (s.stc.state = .stopped ∨ s.stc.state = .rebuild ∨ s.operates = true) → s.cqp.base.isSome = true →
    exec (.notifyB v) s = .next { s with cqp := { s.cqp with
      ringB := { s.cqp.ringB with notify := s.cqp.ringB.reading, reading := true }
      pollTimer := if s.responseFull = true then Config.roomPoll else s.cqp.pollTimer } }) ∧
  (∀ (v : Nat) (s : State), s.cqp.posted = true →
    exec (.attentionRelease v) s = .next { s with cqp := { s.cqp with
      posted := false
      pollTimer := if s.responseFull = true then Config.roomPoll else s.cqp.pollTimer } }) ∧
  (∀ (o v : Nat) (s : State), exec (.unmappedWrite o v) s = .next s) ∧
  (∀ (v : Nat) (s : State), s.cqp.base = none → exec (.notifyU v) s = .next s ∧ exec (.notifyB v) s = .next s) ∧
  (∀ (v : Nat) (s : State), s.stc.state ∈ [.loading, .stopped, .halted] → exec (.notifyU v) s = .next s) ∧
  (∀ (v : Nat) (s : State), s.stc.state ∈ [.loading, .halted] → exec (.notifyB v) s = .next s) ∧
  (∀ (v : Nat) (s : State), s.cqp.posted = false → exec (.attentionRelease v) s = .next s)) ∧
  (∀ (v straps : Nat) (dma : DmaWrite),
    windowStep 0x00 v straps dma = .queueBase v dma ∧ windowStep 0x08 v straps dma = .notifyU v ∧
    windowStep 0x0C v straps dma = .notifyB v ∧ windowStep 0x10 v straps dma = .attentionRelease v ∧
    windowStep 0x14 v straps dma = .stationReset v straps ∧
    ∀ o, o ∉ [0x00, 0x08, 0x0C, 0x10, 0x14] → windowStep o v straps dma = .unmappedWrite o v) ∧
  (∀ (s : State) (o : Nat), (o ≠ 0x18 → s.windowRead o = 0) ∧ (s.stc.resetHeld = false → s.stc.stationNumber < 16 →
    s.windowRead 0x18 = (match s.stc.state with
      | .loading => 1 | .stopped => 2 | .rebuild => 3 | .listening => 4 | .active => 5 | .mute => 6 | .halted => 7) +
      16 * s.stc.stationNumber + (if s.stc.configDefaulted = true then 256 else 0) +
      (if s.stc.marker = true then 512 else 0))) ∧
  ∀ (offset : Nat) (data : List Byte) (s : State),
    (∀ n bad i, i < n → (s.stagingRead offset n bad)[i]? =
      some (if ∃ b ∈ bad, b / 4 = (offset + i) / 4 then 0xFF else memRead s.staging (offset + i))) ∧
    (offset + data.length ≤ Config.stagingBytes →
      ∃ t, exec (.stagingWindowWrite offset data) s = .next t ∧ t = { s with staging := t.staging } ∧
        ∀ a, memRead t.staging a = if offset ≤ a ∧ a < offset + data.length then data.getD (a - offset) 0 else memRead s.staging a) ∧
    (Config.stagingBytes < offset + data.length →
      exec (.stagingWindowWrite offset data) s = .fault .outsideStagingWindow)

/-! ### The rings -/

/-- PRODUCER_INDEX_READ: a value of 0 to 255 becomes the known producer index, and a notify that came meanwhile begins one more
read; a value of 256 or more, or a failed DMA, halts the station with reason RING, what no chapter names staying as it was, the
model's reading (assumption 20). The value that host memory holds is the 32-bit word at 0x40 of the block for Ring U and at 0x48
for Ring B (R198). -/
def Obligations.ProducerIndexReadEnds : Prop :=
  ∀ (r : Ring) (s : State), s.stc.state.fetches r = true → s.cqp.base.isSome = true → (s.cqp.ring r).reading = true →
    (∀ m : Mem, let a := s.cqp.base.getD 0 + (match r with | .u => 0x40 | .b => 0x48)
      s.producerStep m r = .producerIndexRead r (.value ((memRead m a).toNat + 256 * (memRead m (a + 1)).toNat +
        65536 * (memRead m (a + 2)).toNat + 16777216 * (memRead m (a + 3)).toNat))) ∧
    (∀ v, v < 256 → exec (.producerIndexRead r (.value v)) s = .next { s with
      cqp := s.cqp.withRing r { (s.cqp.ring r) with known := v, notify := false, reading := (s.cqp.ring r).notify } }) ∧
    (∀ v, 256 ≤ v → ∃ t, exec (.producerIndexRead r (.value v)) s = .next t ∧ haltedFrom s t .ring) ∧
    ∃ t, exec (.producerIndexRead r .failed) s = .next t ∧ haltedFrom s t .ring

/-- COMMAND_FETCH: the entry of the ring the arbiter chooses joins the tail of that ring's list as the tests before its unit leave
it, with the position it came from; the fetch position advances modulo 256 and is written to the block as the ring's consumer
index, and no other byte changes. A failed DMA halts the station with reason RING and leaves the entry unfetched: the fetch
position, the lists, the arbiter's count and the block are as they were (R180), that no byte of a failed write counts as written
being the model's choice (assumption 21), and that what no chapter names stays as it was at entry to HALTED its reading
(assumption 20). The entry that host memory holds is the 64 bytes at 64 times the fetch position from 0x1000 of the block for Ring
U and from 0x5000 for Ring B (R198). A fetch is possible from a ring, but for the arbiter, exactly when a base is set, the station
state allows the ring, the ring has work, its list has room and the Response Ring, by the consumer index last read, is not full
(R171). -/
def Obligations.FetchedCommandJoinsItsList : Prop :=
  (∀ (r : Ring) (s : State), s.canFetch r = true ↔
    s.cqp.base.isSome = true ∧
    (s.stc.state ∈ [.rebuild, .listening, .active, .mute] ∨ r = .b ∧ s.stc.state = .stopped) ∧
    (s.cqp.ring r).known ≠ (s.cqp.ring r).fetch ∧
    (s.cqp.ring r).inProgress.length < (match r with | .u => 4 | .b => 1) ∧
    (s.cqp.write + 1) % 512 ≠ s.cqp.lastConsumer) ∧
  ∀ (r : Ring) (s : State), s.arbiter = some r →
    (∀ m : Mem, ∃ entry : List Byte, s.fetchStep m r = .commandFetch (.bytes entry) ∧ entry.length = 64 ∧
      ∀ j, j < 64 → entry[j]? = some (memRead m
        (s.cqp.base.getD 0 + (match r with | .u => 0x1000 | .b => 0x5000) + 64 * (s.cqp.ring r).fetch + j))) ∧
    (∀ entry : List Byte, ∃ t, exec (.commandFetch (.bytes entry)) s = .next t ∧
      (t.cqp.ring r).fetch = ((s.cqp.ring r).fetch + 1) % 256 ∧
      (t.cqp.ring r).inProgress = (s.cqp.ring r).inProgress ++ [precheck s.stc.state r (s.cqp.ring r).fetch entry] ∧
      t = { s with
        cqp := { (s.cqp.withRing r { (s.cqp.ring r) with
            fetch := (t.cqp.ring r).fetch, inProgress := (t.cqp.ring r).inProgress }) with consecutiveU := t.cqp.consecutiveU }
        host := t.host } ∧
      t.cqp.consecutiveU = (if r = .u ∧ s.cqp.ringB.known ≠ s.cqp.ringB.fetch then min 8 (s.cqp.consecutiveU + 1) else 0) ∧
      ∀ a, memRead t.host a =
        let at_ := s.cqp.base.getD 0 + (match r with | .u => 0x44 | .b => 0x4C)
        if at_ ≤ a ∧ a < at_ + 4 then (leBytes 4 (t.cqp.ring r).fetch).getD (a - at_) 0 else memRead s.host a) ∧
    ∃ t, exec (.commandFetch .failed) s = .next t ∧ haltedFrom s t .ring ∧
      t.cqp = { s.cqp with causes := s.cqp.causes ||| Cause.halted.bit }

/-- The command arbiter of R172. A fetch possible from one ring alone is that ring's; where it is possible from both, Ring U is
fetched while the consecutive-U count is below 8 and Ring B at 8. A Ring U fetch raises the count, up to 8, when Ring B has work
and clears it when it has none; a Ring B fetch, a reset and a QUEUE-BASE write clear it. -/
def Obligations.ArbiterServesRingBOneInNine : Prop :=
  (∀ s : State, s.canFetch .u = true → s.canFetch .b = true →
    (s.cqp.consecutiveU < 8 → s.arbiter = some .u) ∧ (s.cqp.consecutiveU = 8 → s.arbiter = some .b)) ∧
  (∀ s : State, s.canFetch .u = true → s.canFetch .b = false → s.arbiter = some .u) ∧
  (∀ s : State, s.canFetch .u = false → s.canFetch .b = true → s.arbiter = some .b) ∧
  (∀ s : State, s.canFetch .u = false → s.canFetch .b = false → s.arbiter = none) ∧
  (∀ (s t : State) (entry : List Byte), exec (.commandFetch (.bytes entry)) s = .next t →
    (s.arbiter = some .u → t.cqp.consecutiveU =
      if s.cqp.ringB.known ≠ s.cqp.ringB.fetch then min 8 (s.cqp.consecutiveU + 1) else 0) ∧
    (s.arbiter = some .b → t.cqp.consecutiveU = 0)) ∧
  (∀ (s t : State) (straps : Nat), exec (.powerOn straps) s = .next t ∨ exec (.resetN straps) s = .next t ∨
    (s.stc.resetHeld = false ∧ exec (.stationReset 1 straps) s = .next t) → t.cqp.consecutiveU = 0) ∧
  (∀ (s t : State) (v : Nat), s.stc.state = .stopped → s.cqp.ringB.inProgress = [] → exec (.queueBase v .done) s = .next t →
    t.cqp.consecutiveU = 0)

/-- The tests before the unit (R173): an unknown kind or the wrong ring completes ILLEGAL, else a state that does not accept the
kind completes NOT-NOW, each with no flag and no item (R179), and any other command is left for its unit. Kinds 1 and 2 are Ring
U's and 3 to 25 Ring B's, and each is accepted in the states of the table of section 9.5. The fields of each kind lie from byte 8
on in the order its rule names them, each at the next offset that is a multiple of its width and least significant byte first; a
named value is numbered from 1 and any other byte names none, the field then reading as absent, the model's reading (assumption
34); and a field that may be absent is told by its bit of the presence word (R196, R198). -/
def Obligations.PrecheckOrder : Prop :=
  (∀ (l : List Byte) (o w : Nat), fieldAt l o 0 = 0 ∧ fieldAt l o (w + 1) = (l.getD o 0).toNat + 256 * fieldAt l (o + 1) w) ∧
  ∀ (st : StationState) (r : Ring) (n : Nat) (entry : List Byte),
    let e := precheck st r n entry
    let k := fieldAt entry 0 1
    e.position = n ∧ e.kind = k ∧ e.request = fieldAt entry 4 4 ∧
    (commandOfEntry entry = none ↔ k = 0 ∨ 25 < k) ∧
    (commandOfEntry entry = none →
      e.phase = .settled ⟨e.kind, r, n, e.request, .illegal, false, false, []⟩ ∧ e.command = none) ∧
    ∀ c, commandOfEntry entry = some c →
      (ringOf c = .u ↔ k = 1 ∨ k = 2) ∧
      (acceptedIn c st = true ↔
        if k ∈ [1, 2, 13, 16, 17, 18, 19, 20, 21] then st ∈ [.listening, .active, .mute]
        else if k = 3 then st = .stopped
        else if k ∈ [4, 5, 6, 7] then st = .rebuild
        else if k = 12 then st ∈ [.active, .mute]
        else st ∈ [.rebuild, .listening, .active, .mute]) ∧
      (ringOf c ≠ r → e.phase = .settled ⟨e.kind, r, n, e.request, .illegal, false, false, []⟩ ∧ e.command = none) ∧
      (ringOf c = r → acceptedIn c st = false →
        e.phase = .settled ⟨e.kind, r, n, e.request, .notNow, false, false, []⟩ ∧ e.command = none) ∧
      (ringOf c = r → acceptedIn c st = true → e.phase = .untaken ∧ e.command = some c) ∧
      let f := fieldAt entry
      let may := fun (bit v : Nat) => if (f 1 1).testBit bit = true then some v else none
      let named := fun {α : Type} (values : List α) (v : Nat) => if v = 0 then none else values[v - 1]?
      (k = 1 → c = .charge (f 8 4) (f 12 2) (f 14 1) (f 16 2)) ∧
      (k = 2 → c = .release (f 8 4)) ∧
      (k = 3 → c = .start (named [.fresh, .resume, .auto] (f 8 1)) (f 10 2) (f 12 2) (f 16 4)) ∧
      (k = 4 → c = .rebuildDone) ∧
      (k = 5 → c = .loadOwner (f 8 2) (f 10 1) (may 0 (f 12 4)) (may 1 (f 16 4)) (may 2 (f 20 4))) ∧
      (k = 6 → c = .loadSnapshot (f 8 4) (f 12 2) (f 16 4) (f 20 2) (f 22 1)) ∧
      (k = 7 → c = .loadExtent (f 8 4) (f 12 2) (f 14 1) (f 16 2) (named [.reserved, .live, .held] (f 18 1)) (f 20 4)
        (may 0 (f 24 4)) (named [.awaiting, .copied, .exempt] (f 28 1))) ∧
      (k = 8 → c = .setClock (f 8 2) (f 12 4)) ∧
      (k = 9 → c = .setLimits (f 8 2) (may 0 (f 12 4)) (may 1 (f 16 4)) (named [.now, .rollover] (f 20 1))) ∧
      (k = 10 → c = .setOwnerClass (f 8 2) (f 10 1)) ∧
      (k = 11 → c = .setClass (f 8 1) (f 9 1) (f 10 1) (named [.asStation, .refuse, .partly, .allow] (f 11 1))) ∧
      (k = 12 → c = .callSnapshot (f 8 2) (f 10 1)) ∧
      (k = 13 → c = .expireSnapshot (f 8 4)) ∧
      (k = 14 → c = .protectGroup (f 8 1)) ∧
      (k = 15 → c = .unprotectGroup (f 8 1)) ∧
      (k = 16 → c = .restoreOpen (f 8 4) (f 12 2) (named [false, true] (f 14 1)) (f 16 4)) ∧
      (k = 17 → c = .restoreItem (f 8 1) (f 12 4) (f 16 4) (f 20 4) (f 24 1)) ∧
      (k = 18 → c = .restoreCommit (f 8 1) (f 12 4)) ∧
      (k = 19 → c = .restoreAbort (f 8 1) (f 12 4)) ∧
      (k = 20 → c = .staged (f 8 1) (f 12 4)) ∧
      (k = 21 → c = .stageFailed (f 8 1) (f 12 4)) ∧
      (k = 22 → c = .inspectOwner (f 8 2)) ∧
      (k = 23 → c = .inspectSnapshots (f 8 4)) ∧
      (k = 24 → c = .inspectPeers (f 8 1) (may 0 (f 10 2))) ∧
      (k = 25 → c = .inspectNight)

/-- RESPONSE_WRITE, unless a read has found the ring full since room was last seen, and RESPONSE_ROOM_POLL when a full ring's look
for room is due: with room, the 256 bytes of the entry that the rotation gives are written at the write position and then the new
producer index, no other byte changes, the entry leaves its source, and RESPONSES is raised exactly when the ring was empty;
without room nothing is written. A consumer index of 512 or more, a failed read of it, and a failed write of the entry or of the
producer index are ring structure faults: the station enters HALTED with reason RING and the entry stays in its source (R180),
what no chapter names staying as it was, the model's reading (assumption 20); that no byte counts as written then is the model's
choice (assumption 21), and so is that the 100 µs of the next look are counted from this read, whatever made it due, and that the
last-read index stays where the value read is 512 or more (assumption 14). The value that host memory holds is the 32-bit word at
0x54 of the block (R198). The rotation (R175) runs Ring U, Ring B, notices, from the source after the one last served, and gives
the first that has an entry ready: the completion at the head of a ring's list, or the notice at the head of the queue, under the
next notice count. The bytes of a completion and of a notice lie as R179 and R198 place them, the items from byte 16 on, each at
the next offset that is a multiple of its width, absent ones written as 0 and told by the presence word (R196); that the presence
word of a notice stands where a completion's does, and that the bytes of an entry which nothing occupies are 0, is the model's
reading (assumption 13), and that a notice count past 4,294,967,295 is written modulo 2^32 is its choice (assumption 48). -/
def Obligations.ResponseIsWrittenWhole : Prop :=
  (∀ (i : Instr) (consumer : IndexRead) (dma : DmaWrite) (s : State),
    s.stc.state.fetches .b = true → s.cqp.base.isSome = true →
    (i = .responseWrite consumer dma ∧ s.cqp.roomWait = false ∧ s.nextSource.isSome = true ∨
      i = .responseRoomPoll consumer dma ∧ s.responseFull = true ∧ Config.roomPoll ≤ s.cqp.pollTimer) →
    (consumer = .failed ∨ (∃ v, 512 ≤ v ∧ consumer = .value v) →
      ∃ t, exec i s = .next t ∧ haltedFrom s t .ring ∧ t.cqp = { s.cqp with causes := s.cqp.causes ||| Cause.halted.bit }) ∧
    ∀ v, v < 512 → consumer = .value v →
      ((s.cqp.write + 1) % 512 = v →
        exec i s = .next { s with cqp := { s.cqp with lastConsumer := v, pollTimer := 0, roomWait := true } }) ∧
      ∀ (src : Source) (entry : List Byte), (s.cqp.write + 1) % 512 ≠ v → s.nextSource = some (src, entry) →
        (dma = .failed → ∃ t, exec i s = .next t ∧ haltedFrom s t .ring ∧ t.cqp = { s.cqp with
          lastConsumer := v, pollTimer := 0, roomWait := false, causes := s.cqp.causes ||| Cause.halted.bit }) ∧
        (dma = .done →
          let base := s.cqp.base.getD 0
          let next := (s.cqp.write + 1) % 512
          let ring := base + 0x9000 + 256 * s.cqp.write
          ∃ t, exec i s = .next t ∧
            t.cqp = { s.cqp with
              ringU := if src = .ringU then { s.cqp.ringU with inProgress := s.cqp.ringU.inProgress.tail } else s.cqp.ringU
              ringB := if src = .ringB then { s.cqp.ringB with inProgress := s.cqp.ringB.inProgress.tail } else s.cqp.ringB
              notices := if src = .notices then s.cqp.notices.tail else s.cqp.notices
              noticeCount := if src = .notices then s.cqp.noticeCount + 1 else s.cqp.noticeCount
              lastConsumer := v
              pollTimer := 0
              roomWait := false
              write := next
              rotation := match src with
                | .ringU => .ringB
                | .ringB => .notices
                | .notices => .ringU
              causes := if v = s.cqp.write then s.cqp.causes ||| Cause.responses.bit else s.cqp.causes } ∧
            entry.length = 256 ∧
            (∀ a, memRead t.host a =
              if base + 0x50 ≤ a ∧ a < base + 0x54 then (leBytes 4 next).getD (a - (base + 0x50)) 0
              else if ring ≤ a ∧ a < ring + 256 then entry.getD (a - ring) 0
              else memRead s.host a) ∧
            t = { s with cqp := t.cqp, host := t.host })) ∧
  (∀ w v : Nat, leBytes 0 v = [] ∧ leBytes (w + 1) v = BitVec.ofNat 8 v :: leBytes w (v / 256)) ∧
  ∀ s : State,
    (∀ m : Mem, let a := s.cqp.base.getD 0 + 0x54
      s.consumerRead m = .value ((memRead m a).toNat + 256 * (memRead m (a + 1)).toNat +
        65536 * (memRead m (a + 2)).toNat + 16777216 * (memRead m (a + 3)).toNat)) ∧
    (∀ src entry, s.nextSource = some (src, entry) ↔ ∃ before after,
      (match s.cqp.rotation with
        | .ringU => [Source.ringU, .ringB, .notices]
        | .ringB => [.ringB, .notices, .ringU]
        | .notices => [.notices, .ringU, .ringB]) = before ++ src :: after ∧
      (∀ x ∈ before, s.sourceEntry x = none) ∧ s.sourceEntry src = some entry) ∧
    (∀ entry, s.sourceEntry .ringU = some entry ↔
      ∃ e rest c, s.cqp.ringU.inProgress = e :: rest ∧ e.phase = .settled c ∧ entry = c.bytes) ∧
    (∀ entry, s.sourceEntry .ringB = some entry ↔
      ∃ e rest c, s.cqp.ringB.inProgress = e :: rest ∧ e.phase = .settled c ∧ entry = c.bytes) ∧
    (∀ entry, s.sourceEntry .notices = some entry ↔
      ∃ n rest, s.cqp.notices = n :: rest ∧ entry = n.bytes (s.cqp.noticeCount + 1)) ∧
    (∀ c : Completion, ∃ last : Byte × List Byte, c.bytes =
      ([1, BitVec.ofNat 8 c.kind, if c.ring = .u then 1 else 2, BitVec.ofNat 8 c.outcome.number] ++ leBytes 4 c.request ++
        leBytes 2 c.position ++ [last.1, 0] ++ leBytes 4 (presenceWord 0 c.items) ++ last.2) ∧
      (∀ i, i < 8 → last.1.getLsbD i = (decide (i = 0) && c.provisional || decide (i = 1) && c.overSoft)) ∧
      last.2 = (packItems 16 c.items ++ List.replicate 240 0).take 240) ∧
    (∀ o : OutcomeCode, [OutcomeCode.done, .granted, .grantedWarn, .deniedHard, .deniedGrace, .held, .freed, .admittedOver,
      .refusedLimit, .limited, .noExtent, .notLive, .alreadyReleased, .duplicate, .tableFull, .badField, .illegal, .notNow,
      .catalogueFull, .noSnapshot, .callPending, .epochExhausted, .contextFull, .noContext, .itemLimit, .notVisible, .stale,
      .noTables][o.number - 1]? = some o) ∧
    (∀ (n : Notice) (count : Nat), ∃ items : List Item, n.bytes count =
        (((match n with | .stageRequest .. => 2 | .reclaim _ => 3 | .nightReport _ => 4) :: [0, 0, 0] : List Byte) ++ leBytes 4 count ++ [0, 0, 0, 0] ++
          leBytes 4 (presenceWord 0 items) ++ (packItems 16 items ++ List.replicate 240 0).take 240) ∧
      (∀ x h v l, n = .stageRequest x h v l → items = [.fixed 1 x, .fixed 4 h, .fixed 1 v, .fixed 2 l]) ∧
      (∀ handles, n = .reclaim handles → items = .fixed 1 handles.length :: handles.map (.fixed 4 ·)) ∧
      ∀ r, n = .nightReport r → items = [.fixed 4 r.nightNumber, .fixed 1 (if r.skipped = true then 1 else 0),
        .optional r.epoch.isSome [(4, r.epoch.getD 0)], .fixed 4 r.carriedOver, .fixed 4 r.frozenTonight, .fixed 4 r.extentsCopied,
        .fixed 4 r.blocksCopied, .fixed 4 r.failures, .fixed 4 r.frozenEntries, .fixed 4 r.frozenBlocks, .fixed 4 r.openEntries,
        .fixed 4 r.openBlocks]) ∧
    (∀ (items : List Item) (i : Nat), (presenceWord 0 items).testBit i = ((items.filterMap fun y => match y with
      | .optional present _ => some present
      | _ => none)[i]?).getD false) ∧
    ∀ (offset : Nat) (rest : List Item),
      (∀ width value, 0 < width → ∃ place, place % width = 0 ∧ offset ≤ place ∧ place < offset + width ∧
        packItems offset (.fixed width value :: rest) =
          List.replicate (place - offset) 0 ++ leBytes width value ++ packItems (place + width) rest) ∧
      (∀ present fields, packItems offset (.optional present fields :: rest) =
        packItems offset (fields.map (fun f => .fixed f.1 (if present = true then f.2 else 0)) ++ rest)) ∧
      ∃ place, place % 4 = 0 ∧ offset ≤ place ∧ place < offset + 4 ∧
        packItems offset (.align4 :: rest) = List.replicate (place - offset) 0 ++ packItems place rest

/-- ATTENTION_POST: with attention IDLE, a base set and causes pending, the 64-byte record is written at the block's start, the
pending set is emptied and INT_N asserted; a failed DMA write of the record is no fault and asserts INT_N all the same, the causes
staying pending; that host memory then holds what it held is the model's choice (assumption 21). The record holds the station
state, the first cause by its priority number, the halt reason while HALTED is in the set, the set, and the record number (R199);
a cause's bit is that of its priority number (R177). That a failed posting counts in the record number is the model's choice
(assumption 38); that the bytes of the record which no field occupies are 0 is its reading (assumption 13). -/
def Obligations.AttentionIsPosted : Prop :=
  (∀ (i : Nat) (c : Cause), [Cause.halted, .duplicateStation, .configDefaulted, .linkDown, .restoreExpired, .nightEnd, .linkUp,
    .catalogueChanged, .responses][i]? = some c → ∀ k, k < 16 → c.bit.getLsbD k = decide (k = i)) ∧
  ∀ (s : State) (base : Nat), s.cqp.posted = false → s.cqp.base = some base → s.cqp.causes ≠ 0 →
    let record := s.attentionRecord (s.cqp.recordNumber + 1)
    let at_ := fun i : Nat => (record.getD i 0).toNat
    (∃ t, exec (.attentionPost .done) s = .next t ∧
      t.cqp = { s.cqp with causes := 0, posted := true, recordNumber := s.cqp.recordNumber + 1 } ∧
      t.intAsserted = true ∧ record.length = 64 ∧
      (∀ a, memRead t.host a = if base ≤ a ∧ a < base + 64 then record.getD (a - base) 0 else memRead s.host a) ∧
      t = { s with cqp := t.cqp, host := t.host }) ∧
    (∃ t, exec (.attentionPost .failed) s = .next t ∧ t.intAsserted = true ∧
      t = { s with cqp := { s.cqp with posted := true, recordNumber := s.cqp.recordNumber + 1 } }) ∧
    (at_ 0 = match s.stc.state with
      | .loading => 1 | .stopped => 2 | .rebuild => 3 | .listening => 4 | .active => 5 | .mute => 6 | .halted => 7) ∧
    (∀ k, k < 16 → s.cqp.causes.getLsbD k = true → (∀ j, j < k → s.cqp.causes.getLsbD j = false) → at_ 1 = k + 1) ∧
    (at_ 2 = if s.cqp.causes.getLsbD 0 = true then (match s.stc.haltReason with
      | none => 0
      | some .ring => 1
      | some .table => 2) else 0) ∧
    at_ 4 + 256 * at_ 5 = s.cqp.causes.toNat ∧
    (s.cqp.recordNumber + 1 < 4294967296 →
      at_ 8 + 256 * at_ 9 + 65536 * at_ 10 + 16777216 * at_ 11 = s.cqp.recordNumber + 1) ∧
    ∀ i, i = 3 ∨ i = 6 ∨ i = 7 ∨ 12 ≤ i → at_ i = 0

/-! ### Quota standing -/

/-- Wh of R13: H × w / 16 rounded upward, so that weight 0 charges nothing, weight 16 the whole of H, and any held block charged
at a weight above 0 costs at least one; the weight is that of the owner's class at the moment it is used. -/
def Obligations.WeightedHeldRoundsUp : Prop :=
  (∀ held w : Nat, let Wh := weightedHeld held w
    held * w ≤ 16 * Wh ∧ 16 * Wh < held * w + 16 ∧
    (w = 0 → Wh = 0) ∧ (w = 16 → Wh = held) ∧ (0 < held → 0 < w → 1 ≤ Wh)) ∧
  ∀ (s : State) (r : OwnerRec), s.chargeable r = r.live + weightedHeld r.held (s.qsu.classes.getD r.cls .afterReset).weight

/-- The rows of R16 over S′ = S + n, where S is C + R + P, and both sums stop at 4,294,967,295; grace is expired when it runs and
its expiry day has come (R20). A saturated standing lies above every limit that may be present (R15). A figure lies above a limit
that is present and less than it, which is also how OVER-SOFT is found. -/
def Obligations.AdmissionDecisionRows : Prop :=
  (∀ (limit : Option Nat) (figure : Nat), aboveLimit limit figure = true ↔ ∃ l, limit = some l ∧ l < figure) ∧
  ∀ (s : State) (r : OwnerRec) (n : Nat),
    let sum := min (s.chargeable r + r.reserved + r.peerSum) 4294967295
    let after := min (sum + n) 4294967295
    let hardOver := ∃ l, r.hard = some l ∧ l < after
    let softOver := ∃ l, r.soft = some l ∧ l < after
    let expired := ∃ d, r.grace = .running d ∧ d ≤ s.stc.clock.day
    s.standing r = sum ∧
    (s.decision r n = .deniedHard ↔ hardOver) ∧
    (s.decision r n = .deniedGrace ↔ ¬ hardOver ∧ expired ∧ softOver) ∧
    (s.decision r n = .grantedWarn ↔ ¬ hardOver ∧ ¬ expired ∧ softOver) ∧
    (s.decision r n = .granted ↔ ¬ hardOver ∧ ¬ softOver) ∧
    (4294967295 ≤ s.chargeable r + r.reserved + r.peerSum → ∀ l, r.hard = some l → l ≤ 4294967294 → s.decision r n = .deniedHard)

/-- One access to an owner record where the tables are in use: the pending pair replaces the limits once its apply day has come
(R12), grace is re-evaluated by the table of R19 before and after the access's own work, and a changed C is reported (R7, R8). In
REBUILD the work alone is done. -/
def Obligations.AccessOpensAndReports : Prop :=
  ∀ (s : State) (o : Nat) (work : OwnerRec → OwnerRec),
    let r := s.owner o
    let graced := fun (x : OwnerRec) (y : OwnerRec) =>
      ((x.soft = none ∨ ∃ l, x.soft = some l ∧ s.standing x ≤ l) → y = { x with grace := .none }) ∧
      (∀ l, x.soft = some l → l < s.standing x → x.grace = .none →
        y = { x with grace := .running (s.stc.clock.day + (s.qsu.classes.getD x.cls .afterReset).graceDays) }) ∧
      (∀ l d, x.soft = some l → l < s.standing x → x.grace = .running d → y = x)
    (∀ x, graced x { x with grace := s.graceAfter x }) ∧
    (∀ x, s.closing x = if s.operates = true then { x with grace := s.graceAfter x } else x) ∧
    accessedTo s (s.access o work) o ((s.access o work).owner o) ∧
    (s.operates = true →
      (∀ p, r.pendingLimits = some p → p.applyDay ≤ s.stc.clock.day →
        graced { r with soft := p.soft, hard := p.hard, pendingLimits := none } (s.opened o)) ∧
      ((∀ p, r.pendingLimits = some p → s.stc.clock.day < p.applyDay) → graced r (s.opened o)) ∧
      graced (work (s.opened o)) ((s.access o work).owner o)) ∧
    (s.operates = false → s.opened o = r ∧ (s.access o work).owner o = work r ∧ (s.access o work).uvu = s.uvu) ∧
    s.access o work = { s with qsu := (s.access o work).qsu, uvu := (s.access o work).uvu }

/-! ### Extents, charges and releases -/

/-- Visible and covered, as R32 says them. -/
def Obligations.VisibleAndCovered : Prop :=
  ∀ (s : State) (r : ExtentRec),
    (∀ S, r.visible S = true ↔ r.state ≠ .reserved ∧ ∃ b, r.birth = some b ∧ b < S ∧ ∀ d, r.death = some d → S ≤ d) ∧
    (s.covered r = true ↔ ∃ x ∈ s.scu.catalogue, r.visible x.epoch = true)

/-- CHARGE, behind an earlier CHARGE of its handle, waits whatever its fields, and is tested once that has its outcome (R35). It
takes the tests of R33 in their order and changes nothing on a refusal; one that passes claims its handle and a place, and awaits
its decision. -/
def Obligations.ChargeClaimsItsHandle : Prop :=
  ∀ (h o v l : Nat) (ecc : Ecc) (s : State) (before after : List InProgress) (e : InProgress),
    s.offersU before e after (.charge h o v l) → ecc ≠ .uncorrectable →
    let refused := fun c => exec (.charge h o v l ecc) s = .next (s.withListU (before ++ settledU e c false false [] :: after))
    let bad := h = 0 ∨ l = 0 ∨ 256 < l ∨ 15 < v
    let waits := (⟨h, .charge⟩ : Claim) ∈ s.xtu.claims
    let known := (∃ r, s.extent h = some r) ∨ (⟨h, .item⟩ : Claim) ∈ s.xtu.claims
    let full := 4194304 ≤ s.xtu.extents.length + s.xtu.claims.length
    (waits → exec (.charge h o v l ecc) s = .next s) ∧
    (¬ waits → bad → refused .badField) ∧
    (¬ waits → ¬ bad → known → refused .duplicate) ∧
    (¬ waits → ¬ bad → ¬ known → full → refused .tableFull) ∧
    (¬ waits → ¬ bad → ¬ known → ¬ full → exec (.charge h o v l ecc) s =
      .next { s.withListU (before ++ { e with phase := .claimed l } :: after) with
        xtu := { s.xtu with claims := s.xtu.claims ++ [⟨h, .charge⟩] } })

/-- The CHARGE at a ring position that awaits its decision. A grant raises L by the length, makes the LIVE record with birth K,
copy state by the selector and nothing else set, and appends a selected extent to the open generation; a denial writes no total;
either ends the claim and settles the command with the decision's flags (R16, R17, R18, R34, R35): PROVISIONAL in LISTENING, in
MUTE and while a PRESENT peer is not caught up (R22). The decision is taken over the record as the opening steps leave it; that a
class with 0 grace days is then DENIED-GRACE in the access that starts its period, against the words of R21, is the model's choice
(assumption 43). -/
def Obligations.ChargeIsDecided : Prop :=
  ∀ (ecc : Ecc) (s : State) (before after : List InProgress) (e : InProgress) (h o v l n : Nat),
    s.operates = true → ecc ≠ .uncorrectable → s.cqp.ringU.inProgress = before ++ e :: after →
    (∀ x ∈ before ++ after, x.position ≠ e.position) → e.command = some (.charge h o v l) → e.phase = .claimed n →
    let r := s.opened o
    let d := s.decision r l
    let claims := s.xtu.claims.filter fun x => decide (x.handle ≠ h)
    let graced := fun x : OwnerRec => { x with grace := s.graceAfter x }
    let k := s.scu.current
    let selected := (v * 16 + r.cls) &&& s.config.selectorMask = s.config.selectorKey &&& s.config.selectorMask
    (s.provisional = true ↔ s.stc.state = .listening ∨ s.stc.state = .mute ∨
      ∃ p x, p ≠ s.stc.stationNumber ∧ s.psi.peers[p]? = some x ∧ x.state = .present ∧ x.caughtUp = false) ∧
    ∃ t, exec (.chargeAdmission e.position ecc) s = .next t ∧
      ((d = .granted ∨ d = .grantedWarn) →
        accessedTo s t o (graced { r with live := r.live + l }) ∧
        t.xtu = { s.xtu with
          claims := claims
          extents := tableInsert h ⟨o, v, l, .live, some k, none, some (if selected then .awaiting else .exempt), false, none⟩
            s.xtu.extents } ∧
        t.cju = { s.cju with openGen := if selected then s.cju.openGen ++ [⟨h, l, k⟩] else s.cju.openGen } ∧
        t.cqp = (s.withListU (before ++
          settledU e d s.provisional (aboveLimit r.soft (s.standing { r with live := r.live + l })) [] :: after)).cqp) ∧
      ((d = .deniedHard ∨ d = .deniedGrace) →
        accessedTo s t o (graced r) ∧ t.xtu = { s.xtu with claims := claims } ∧ t.cju = s.cju ∧
        t.cqp = (s.withListU (before ++ settledU e d s.provisional (aboveLimit r.soft (s.standing r)) [] :: after)).cqp) ∧
      t = { s with cqp := t.cqp, qsu := t.qsu, xtu := t.xtu, uvu := t.uvu, cju := t.cju }

/-- RELEASE waits behind an earlier CHARGE of its handle (R35), and else takes the tests of R36 in their order, changing nothing
on a refusal; a covered LIVE extent becomes HELD at the tail of the Held List with death epoch K (R37), and an uncovered one is
deleted with its place in the open generation (R38). -/
def Obligations.ReleaseHoldsOrFrees : Prop :=
  ∀ (h : Nat) (ecc : Ecc) (s : State) (before after : List InProgress) (e : InProgress),
    s.offersU before e after (.release h) → ecc ≠ .uncorrectable →
    let waits := (⟨h, .charge⟩ : Claim) ∈ s.xtu.claims
    let settled := fun c items => s.withListU (before ++ settledU e c false false items :: after)
    let refused := fun c => exec (.release h ecc) s = .next (settled c [.fixed 4 h])
    let graced := fun x : OwnerRec => { x with grace := s.graceAfter x }
    (h = 0 → refused .badField) ∧
    (h ≠ 0 → waits → exec (.release h ecc) s = .next s) ∧
    (h ≠ 0 → ¬ waits → s.extent h = none → refused .noExtent) ∧
    (∀ r, h ≠ 0 → ¬ waits → s.extent h = some r → r.state = .reserved → refused .notLive) ∧
    (∀ r, h ≠ 0 → ¬ waits → s.extent h = some r → r.state = .held → refused .alreadyReleased) ∧
    ∀ r, h ≠ 0 → ¬ waits → s.extent h = some r → r.state = .live →
      let x := s.opened r.owner
      let items := [.fixed 4 h, .fixed 2 r.owner, .fixed 2 r.length]
      ∃ t, exec (.release h ecc) s = .next t ∧
        (s.covered r = true →
          accessedTo s t r.owner (graced { x with live := x.live - r.length, held := x.held + r.length }) ∧
          t.xtu = { s.xtu with
            extents := tableInsert h { r with state := .held, death := some s.scu.current } s.xtu.extents
            heldList := s.xtu.heldList ++ [h] } ∧
          t.cju = s.cju ∧ t.cqp = (settled .held items).cqp) ∧
        (s.covered r = false →
          accessedTo s t r.owner (graced { x with live := x.live - r.length }) ∧
          t.xtu = { s.xtu with extents := tableErase h s.xtu.extents } ∧
          t.cju = { s.cju with openGen := s.cju.openGen.filter fun y => decide (y.handle ≠ h) } ∧
          t.cqp = (settled .freed items).cqp) ∧
        t = { s with cqp := t.cqp, qsu := t.qsu, xtu := t.xtu, uvu := t.uvu, cju := t.cju }

/-- The oldest report of a changed C is acted on: an owner on the Dirty List is left where it stands, another joins its tail and
its flag is set, or, with 4,096 owners on the list, the list-overflowed flag is set and nothing is appended (R121). That of
several reports outstanding the oldest is acted on first is the model's choice (assumption 51). -/
def Obligations.DirtyReportActs : Prop :=
  ∀ (ecc : Ecc) (s : State) (o : Nat) (rest : List Nat),
    s.operates = true → ecc ≠ .uncorrectable → s.uvu.reports = o :: rest →
    ∃ t, exec (.dirtyReport ecc) s = .next t ∧
      ((s.owner o).dirty = true → t = { s with uvu := { s.uvu with reports := rest } }) ∧
      ((s.owner o).dirty = false → s.uvu.dirtyList.length < 4096 →
        t.uvu = { s.uvu with reports := rest, dirtyList := s.uvu.dirtyList ++ [o] } ∧
        t.owner o = { s.owner o with dirty := true } ∧ (∀ p, p ≠ o → t.owner p = s.owner p) ∧
        t = { s with uvu := t.uvu, qsu := { s.qsu with owners := t.qsu.owners } }) ∧
      ((s.owner o).dirty = false → 4096 ≤ s.uvu.dirtyList.length →
        t = { s with uvu := { s.uvu with reports := rest, overflowed := true } })

/-- A visit of the running sweep (R42): with 16 handles in the batch the sweep pauses before it, whatever the entry needs, the
model's reading (assumption 32); it touches no table then, and none where it ends and starts no sweep again, which is its reading
too (assumption 53). Else a covered entry is left, an uncovered member of the journal is marked and left, and any other is
deleted, its handle leaving the Held List for the batch and H falling by its length; the deletion that fills the batch posts it,
or leaves it waiting where the queue has no room (R46). The first part says so where the range goes on after the entry. The second
says it of the last entry, with the end of the sweep (R44), which an empty range meets at once: with nothing in the batch the
sweep is complete, a sweep again over the whole Held List when one was asked for, else IDLE; a batch is posted first where the
queue has room, and else the sweep is PAUSED with nothing left. -/
def Obligations.SweepVisitsAndEnds : Prop :=
  (∀ (ecc : Ecc) (s : State) (h : Nat) (rest : List Nat),
    s.operates = true → s.xtu.sweep.state = .running → s.xtu.sweep.range = h :: rest →
    (16 ≤ s.xtu.batch.length → exec (.sweepVisit ecc) s = .next { s with xtu := { s.xtu with
      sweep := { s.xtu.sweep with state := .paused } } }) ∧
    ∀ r next, ecc ≠ .uncorrectable → s.xtu.batch.length < 16 → s.extent h = some r → rest.head? = some next → next ≠ h →
      let moved : Sweep := { s.xtu.sweep with range := rest }
      let x := s.opened r.owner
      let y : OwnerRec := { x with held := x.held - r.length }
      let deleted : Xtu := { s.xtu with
        sweep := { s.xtu.sweep with range := rest.filter fun x => decide (x ≠ h) }
        extents := tableErase h s.xtu.extents
        heldList := s.xtu.heldList.filter fun x => decide (x ≠ h)
        batch := s.xtu.batch ++ [h]
        batchTimer := if s.xtu.batch = [] then 0 else s.xtu.batchTimer }
      (s.covered r = true → exec (.sweepVisit ecc) s = .next { s with xtu := { s.xtu with sweep := moved } }) ∧
      (s.covered r = false → r.copy = some .awaiting → exec (.sweepVisit ecc) s = .next { s with xtu := { s.xtu with
        sweep := moved
        extents := tableInsert h { r with mark := true } s.xtu.extents } }) ∧
      (s.covered r = false → r.copy ≠ some .awaiting →
        ∃ t, exec (.sweepVisit ecc) s = .next t ∧
          accessedTo s t r.owner { y with grace := s.graceAfter y } ∧
          (s.xtu.batch.length < 15 → t.xtu = deleted ∧ t.cqp = s.cqp) ∧
          (s.xtu.batch.length = 15 → s.canHand .reclaim = true →
            t.xtu = { deleted with batch := [], batchTimer := 0, batchWaiting := false } ∧
            t.cqp = { s.cqp with
              notices := s.cqp.notices ++ [.reclaim (s.xtu.batch ++ [h])]
              waiting := s.cqp.waiting.filter fun v => decide (v ≠ .reclaim) }) ∧
          (s.xtu.batch.length = 15 → s.canHand .reclaim = false →
            t.xtu = { deleted with batchWaiting := true } ∧
            t.cqp = { s.cqp with waiting := (s.await .reclaim).cqp.waiting }) ∧
          t = { s with qsu := t.qsu, xtu := t.xtu, uvu := t.uvu, cqp := t.cqp })) ∧
  ∀ (ecc : Ecc) (s : State),
    s.operates = true → s.xtu.sweep.state = .running →
    let ended := fun (t : State) (extents : Table ExtentRec) (heldList batch : List Nat) =>
      let left : Xtu := { s.xtu with extents := extents, heldList := heldList }
      let complete : Sweep := if s.xtu.sweep.again = true ∧ heldList ≠ [] then ⟨.running, heldList, false⟩ else ⟨.idle, [], false⟩
      (batch = [] → t.xtu = { left with sweep := complete } ∧ t.cqp = s.cqp) ∧
      (batch ≠ [] → s.canHand .reclaim = true →
        t.xtu = { left with sweep := complete, batch := [], batchTimer := 0, batchWaiting := false } ∧
        t.cqp = { s.cqp with
          notices := s.cqp.notices ++ [.reclaim batch], waiting := s.cqp.waiting.filter fun v => decide (v ≠ .reclaim) }) ∧
      (batch ≠ [] → s.canHand .reclaim = false →
        t.xtu = { left with
          sweep := { s.xtu.sweep with state := .paused, range := [] }
          batch := batch
          batchTimer := if s.xtu.batch = [] then 0 else s.xtu.batchTimer
          batchWaiting := true } ∧
        t.cqp = { s.cqp with waiting := (s.await .reclaim).cqp.waiting })
    (s.xtu.sweep.range = [] →
      ecc ≠ .uncorrectable ∨ s.xtu.sweep.again = false ∨ (s.xtu.batch ≠ [] ∧ s.canHand .reclaim = false) →
      ∃ t, exec (.sweepVisit ecc) s = .next t ∧
      ended t s.xtu.extents s.xtu.heldList s.xtu.batch ∧ t = { s with xtu := t.xtu, cqp := t.cqp }) ∧
    ∀ h r, ecc ≠ .uncorrectable → s.xtu.sweep.range = [h] → s.xtu.batch.length < 16 → s.extent h = some r →
      ∃ t, exec (.sweepVisit ecc) s = .next t ∧
        (s.covered r = true → ended t s.xtu.extents s.xtu.heldList s.xtu.batch ∧ t.qsu = s.qsu ∧ t.uvu = s.uvu) ∧
        (s.covered r = false → r.copy = some .awaiting →
          ended t (tableInsert h { r with mark := true } s.xtu.extents) s.xtu.heldList s.xtu.batch ∧
          t.qsu = s.qsu ∧ t.uvu = s.uvu) ∧
        (s.covered r = false → r.copy ≠ some .awaiting →
          let x := s.opened r.owner
          let y : OwnerRec := { x with held := x.held - r.length }
          ended t (tableErase h s.xtu.extents) (s.xtu.heldList.filter fun x => decide (x ≠ h)) (s.xtu.batch ++ [h]) ∧
          accessedTo s t r.owner { y with grace := s.graceAfter y }) ∧
        t = { s with qsu := t.qsu, xtu := t.xtu, uvu := t.uvu, cqp := t.cqp }

/-- A batch whose second has passed is posted as one RECLAIM notice of its handles in order, or waits where the queue has no room;
a waiting batch is handed over once there is room, and then empties (R46). A sweep that paused goes on, or is complete where it
has nothing left to visit (R42, R44). The notice queue's places (R176): a unit has a notice to hand over when its batch waits, its
report is built, or the staging condition holds but for the room (R148); a unit may hand its notice over when the places left
exceed the units that have waited longer; the units that wait stand in the order in which they began to, a unit that no longer has
a notice to hand over giving up its turn; and a unit that begins to wait joins behind the others; where staging comes to want a
place in the event in which another unit begins to wait, that it stands before that unit is the model's choice (assumption 12).
The posting that starts a sweep again reads table memory, and is stated here where it meets no uncorrectable error (R51). -/
def Obligations.BatchIsPosted : Prop :=
  (∀ (i : Instr) (ecc : Ecc) (s : State), s.stc.state.receives = true → s.xtu.batch ≠ [] →
    (i = .reclaimBatchTimeout ecc ∧ s.xtu.batchWaiting = false ∧ Config.second ≤ s.xtu.batchTimer ∨
      i = .reclaimBatchPost ecc ∧ s.xtu.batchWaiting = true ∧ s.canHand .reclaim = true) →
    (s.canHand .reclaim = true →
      ecc ≠ .uncorrectable ∨ ¬ (s.xtu.sweep.state = .paused ∧ s.xtu.sweep.range = [] ∧ s.xtu.sweep.again = true) →
      exec i s = .next { s with
      cqp := { s.cqp with
        notices := s.cqp.notices ++ [.reclaim s.xtu.batch]
        waiting := s.cqp.waiting.filter fun v => decide (v ≠ .reclaim) }
      xtu := { s.xtu with
        batch := []
        batchTimer := 0
        batchWaiting := false
        sweep :=
          if s.xtu.sweep.state ≠ .paused then s.xtu.sweep
          else if s.xtu.sweep.range ≠ [] then { s.xtu.sweep with state := .running }
          else if s.xtu.sweep.again = true ∧ s.xtu.heldList ≠ [] then ⟨.running, s.xtu.heldList, false⟩
          else ⟨.idle, [], false⟩ } }) ∧
    (s.canHand .reclaim = false → exec i s = .next { s with
      cqp := { s.cqp with waiting := (s.await .reclaim).cqp.waiting }
      xtu := { s.xtu with batchWaiting := true } })) ∧
  ∀ (s : State) (u : NoticeUnit),
    (s.noticeWanted u = true ↔ match u with
      | .reclaim => s.xtu.batchWaiting = true
      | .report => s.cju.report ≠ none
      | .staging => s.stc.state = .active ∧ s.odu.linkUp = true ∧ s.cju.window = .opened ∧
          (∃ x ∈ s.odu.slots, x.state = .free) ∧ ∃ x ∈ s.cju.frozen, x.step = .waiting) ∧
    (∀ before after, s.noticeOrder = before ++ u :: after → u ∉ before →
      (s.canHand u = true ↔ s.cqp.notices.length + before.length < 32)) ∧
    (u ∉ s.noticeOrder → (s.canHand u = true ↔ s.cqp.notices.length + s.noticeOrder.length < 32)) ∧
    (s.noticeOrder = s.cqp.waiting.filter s.noticeWanted ∨
      s.noticeOrder = s.cqp.waiting.filter s.noticeWanted ++ [.staging]) ∧
    (u ∈ s.noticeOrder ↔ s.noticeWanted u = true ∧ (u = .staging ∨ u ∈ s.cqp.waiting)) ∧
    (u ∈ s.noticeOrder → (s.await u).cqp.waiting = s.noticeOrder) ∧
    (u ∉ s.noticeOrder → (s.await u).cqp.waiting = s.noticeOrder ++ [u])

/-! ### Resets and the configuration load -/

/-- What a reset leaves. Power-on leaves the machine as `State.reset` has it, with the straps as the station number; every other
reset brings the on-chip state to its reset values and keeps table memory, the marker, the staging data and host memory (R183).
STATION-RESET acts on the value 1 alone. The model's choices: that table memory is empty after power-on (assumption 2); that while
RESET_N is low the station is held in reset with its old straps and cause, and that straps count modulo 16 (assumption 18); that
POWER_ON finds the pin high (assumption 50); the reset values that the manual does not state (assumption 19); and that the queue
of waiting steps is kept (assumption 4). -/
def Obligations.ResetsLeave : Prop :=
  ∀ (straps : Nat) (s : State),
    let kept := fun (cause : ResetCause) (station : Nat) (held : Bool) => { State.reset with
      stc := { Stc.reset with stationNumber := station, resetCause := cause, resetHeld := held, marker := s.stc.marker }
      qsu := { Qsu.reset with owners := s.qsu.owners }
      xtu := { Xtu.reset with extents := s.xtu.extents, heldList := s.xtu.heldList }
      scu := { Scu.reset with catalogue := s.scu.catalogue, current := s.scu.current, protectedSet := s.scu.protectedSet }
      uvu := { Uvu.reset with poolInUse := s.uvu.poolInUse }
      cju := { Cju.reset with openGen := s.cju.openGen, frozen := s.cju.frozen, nightNumber := s.cju.nightNumber }
      staging := s.staging
      host := s.host
      pending := s.pending }
    exec (.powerOn straps) s = .next { State.reset with
      stc := { Stc.reset with stationNumber := straps % 16 }, host := s.host, pending := s.pending } ∧
    exec (.resetN straps) s = .next (kept .pin (straps % 16) false) ∧
    (s.stc.resetHeld = false → exec (.stationReset 1 straps) s = .next (kept .station (straps % 16) false)) ∧
    (∀ v, v ≠ 1 → exec (.stationReset v straps) s = .next s) ∧
    exec .resetNLow s = .next (kept s.stc.resetCause s.stc.stationNumber true)

/-- A read of the EEPROM ends the load with the image when it is valid, with the built-in defaults and CONFIG-DEFAULTED when no
device answers or the sixteenth read ends in mismatch, and else leaves the station in LOADING with one read more (R184, R185). An
image is valid when its 32 words, combined by exclusive or, give 0x6C35. Its fields lie as R202 decodes them, each clamped to its
range (R186). -/
def Obligations.ConfigurationLoadEnds : Prop :=
  ∀ (data : List Byte) (s : State), s.stc.state = .loading → s.stc.resetHeld = false →
    let valid := data.length = 64 ∧
      (List.range 32).foldl (fun a i => a ^^^ BitVec.ofNat 16 (leValue ((data.drop (2 * i)).take 2))) 0 = (0x6C35 : Word16)
    let ended := fun (reads : Nat) => { s with
      stc := { s.stc with state := .stopped, config := some ConfigImage.defaults, configDefaulted := true, reads := reads }
      cqp := { s.cqp with causes := s.cqp.causes ||| Cause.configDefaulted.bit } }
    let mismatch := fun (r : EepromRead) =>
      (s.stc.reads + 1 < 16 → exec (.configurationRead r) s = .next { s with stc := { s.stc with reads := s.stc.reads + 1 } }) ∧
      (16 ≤ s.stc.reads + 1 → exec (.configurationRead r) s = .next (ended (s.stc.reads + 1)))
    let byte := fun j : Nat => (data.getD j 0).toNat
    let word := fun i : Nat => byte (2 * i) + 256 * byte (2 * i + 1)
    let long := fun i : Nat => word i + 65536 * word (i + 1)
    let field := fun (value low high got : Nat) =>
      (value < low → got = low) ∧ (high < value → got = high) ∧ (low ≤ value → value ≤ high → got = value)
    (valid → exec (.configurationRead (.image data)) s = .next { s with
      stc := { s.stc with state := .stopped, config := some (imageOf data), configDefaulted := false } }) ∧
    (¬ valid → mismatch (.image data)) ∧ mismatch .stopped ∧
    exec (.configurationRead .noDevice) s = .next (ended s.stc.reads) ∧
    (valid → let c := imageOf data
      field (word 0) 1 10 c.beaconInterval ∧ field (word 1) 5 1000 c.walkerInterval ∧ field (word 2) 3 60 c.silenceLimit ∧
      field (word 3) 0 10080 c.forgetLimit ∧ field (long 4) 1 1000000 c.egressCap ∧ field (long 6) 1 1000000 c.linkMaximum ∧
      field (word 8) 0 1439 c.nightStart ∧ field (word 9) 1 1439 c.nightLength ∧ field (word 10) 0 60 c.callGuard ∧
      field (word 11) 0 1439 c.expiryMinute ∧ field (word 12) 1 3650 c.peerRetention ∧
      field (word 13) 1 3650 c.nightRetention ∧ field (byte 28) 0 7 c.peerGroup ∧ field (byte 29) 0 7 c.nightGroup ∧
      field (word 15) 60 3600 c.idleTimeout ∧ (c.defaultPartial = true ↔ byte 32 = 2) ∧ (c.keepTables = false ↔ byte 33 = 0) ∧
      c.selectorKey = byte 34 ∧ c.selectorMask = byte 35 ∧ c.targetMap.length = 16 ∧
      ∀ v, v < 16 → c.targetMap.getD v 0 = byte (36 + v))

/-! ### START and REBUILD-DONE -/

/-- START by the tests and the dispatch table of R188: a mode that names none or a second above 86,399 is refused BAD-FIELD, and a
dispatch to NO-TABLES is refused NO-TABLES, with nothing changed. A START that passes sets the clock, the incarnation, the
sequence and the walk cycle counter (R189, R112, R125), and begins to empty the tables, the marker cleared, or the cleanup walk;
that the event of a RESUME meets no table memory is the model's reading (assumption 53). The generator's series and its count of
draws, 1 after this one, are the model's choice (assumption 16), as are the fraction of the second, 0, and the noted clock
moments, dropped (assumption 17). -/
def Obligations.StartDispatches : Prop :=
  ∀ (mode : Option StartMode) (incarnation day second : Nat) (ecc : Ecc) (s : State) (e : InProgress),
    s.offersB e (.start mode incarnation day second) →
    let i := Instr.start mode incarnation day second ecc
    let begun := fun (marker : Bool) (work : StartWork) => { s.withPhaseB e .working with
      stc := { s.stc with
        marker := marker, clock := ⟨day, second, 0⟩, expiryMoment := false, windowMoment := false, work := work }
      psi := { s.psi with incarnation := some incarnation, sequence := 0, generator := ⟨s.stc.stationNumber, incarnation, 1⟩ }
      uvu := { s.uvu with walkCycle := Config.generatorDraw s.stc.stationNumber incarnation 0 % 65536 } }
    let fresh := ecc ≠ .uncorrectable → exec i s = .next (begun false .emptying)
    let resume := exec i s = .next (begun s.stc.marker (.cleaning 0 0))
    (mode = none ∨ 86399 < second → exec i s = .next (s.refusedWith e .badField)) ∧
    (second ≤ 86399 →
      (mode = some .fresh → fresh) ∧
      (mode = some .resume → s.stc.marker = true → resume) ∧
      (mode = some .resume → s.stc.marker = false → exec i s = .next (s.refusedWith e .noTables)) ∧
      (mode = some .auto → s.stc.marker = true → s.config.keepTables = true → resume) ∧
      (mode = some .auto → s.stc.marker = true → s.config.keepTables = false → fresh) ∧
      (mode = some .auto → s.stc.marker = false → fresh))

/-- The last table is empty: the station enters REBUILD with every table of R189 empty, all emptied in this event, the model's
choice (assumption 45); Ring U's producer index is read, and START completes DONE with the mode FRESH, the reset cause and the
incarnation. The cleanup walk of a RESUME (R191): RESERVED extents are deleted one by one, then each owner's R and dirty-member
flag are cleared, then each frozen entry under way reverts in place, then each peer entry but the station's own becomes SILENT
with no field, the Station Table being on chip (R106; the model's reading, assumption 53). With nothing left the station enters
LISTENING and START completes DONE with the mode RESUME (R192): every DUE record takes its removal test, and from the expiry
minute on so does every record whose expiry day has come; a removal raises CATALOGUE-CHANGED; and one sweep starts over the whole
Held List, a further one being asked for where a record was removed (R41, R50). Which record comes first within one of the walk's
four parts is the model's choice (assumption 47). The walk's last event is stated with every context FREE, the sweep IDLE and the
batch empty, as a reset leaves them. -/
def Obligations.StartWorkEnds : Prop :=
  (∀ (ecc : Ecc) (s : State) (e : InProgress), s.stc.state = .stopped → s.stc.work = .emptying → ecc ≠ .uncorrectable →
    s.cqp.ringB.inProgress = [e] → e.phase = .working →
    ∃ t, exec (.tableEmptyingEnd ecc) s = .next t ∧
      t.stc = { s.stc with state := .rebuild, work := .idle } ∧
      (∀ o, t.owner o = OwnerRec.fresh) ∧ t.qsu.classes = s.qsu.classes ∧
      t.xtu = { s.xtu with extents := [], heldList := [] } ∧
      t.scu.catalogue = [] ∧ t.scu.current = 0 ∧ t.scu.lastMissed = none ∧ t.scu.protectedSet = 0 ∧
      t.scu.highestHeard = s.scu.highestHeard ∧
      t.uvu = { s.uvu with poolInUse := 0, viewIncomplete := false } ∧
      t.cju = { s.cju with openGen := [], frozen := [], nightNumber := 0 } ∧
      t.cqp = { s.cqp with
        ringU := { s.cqp.ringU with notify := s.cqp.ringU.reading, reading := true }
        ringB := { s.cqp.ringB with inProgress := [{ e with phase := .settled ⟨e.kind, .b, e.position, e.request, .done, false, false,
          [.fixed 1 1, .fixed 1 s.stc.resetCause.byte, .fixed 2 (s.psi.incarnation.getD 0)]⟩ }] } } ∧
      t = { s with stc := t.stc, cqp := t.cqp, qsu := t.qsu, xtu := t.xtu, scu := t.scu, uvu := t.uvu, cju := t.cju }) ∧
  ∀ (ecc : Ecc) (s : State) (owner peer : Nat), s.stc.state = .stopped → s.stc.work = .cleaning owner peer →
    (∀ before h r after, ecc ≠ .uncorrectable → s.xtu.extents = before ++ (h, r) :: after → (∀ x ∈ before, x.2.state ≠ .reserved) → r.state = .reserved →
      exec (.cleanupWalkStep ecc) s = .next { s with xtu := { s.xtu with extents := tableErase h s.xtu.extents } }) ∧
    ((∀ x ∈ s.xtu.extents, x.2.state ≠ .reserved) →
      (owner < 65536 → ecc ≠ .uncorrectable → ∃ t, exec (.cleanupWalkStep ecc) s = .next t ∧
        t.owner owner = { s.owner owner with reserved := 0, dirty := false } ∧ (∀ p, p ≠ owner → t.owner p = s.owner p) ∧
        t = { s with
          stc := { s.stc with work := .cleaning (owner + 1) peer }, qsu := { s.qsu with owners := t.qsu.owners } }) ∧
      (∀ x, 65536 ≤ owner → ecc ≠ .uncorrectable → s.cju.frozen.find? (fun y => decide (y.step ≠ .waiting)) = some x →
        exec (.cleanupWalkStep ecc) s = .next { s with cju := { s.cju with frozen := s.cju.frozen.map fun y =>
          if y.handle = x.handle then { y with step := .waiting, attempts := 0 } else y } }) ∧
      (65536 ≤ owner → (∀ x ∈ s.cju.frozen, x.step = .waiting) → peer < 16 →
        exec (.cleanupWalkStep ecc) s = .next { s with
          stc := { s.stc with work := .cleaning owner (peer + 1) }
          psi := { s.psi with peers :=
            if peer = s.stc.stationNumber then s.psi.peers
            else s.psi.peers.set peer ⟨.silent, none, none, 0, 0, none, none, false, none⟩ } }) ∧
      (∀ e, 65536 ≤ owner → (∀ x ∈ s.cju.frozen, x.step = .waiting) → 16 ≤ peer → ecc ≠ .uncorrectable →
        s.cqp.ringB.inProgress = [e] → e.phase = .working → s.catalogueLaw → (∀ c ∈ s.rcu.contexts, c.state = .free) →
        s.xtu.sweep = ⟨.idle, [], false⟩ → s.xtu.batch = [] →
        let falls := fun r : SnapRec =>
          r.due = true ∨ 60 * s.config.expiryMinute ≤ s.stc.clock.second ∧ r.expiryDay ≤ s.stc.clock.day
        let kept := s.scu.catalogue.filterMap fun r =>
          if ¬ falls r then some r
          else if s.scu.protectedSet.getLsbD r.group = false ∧ r.undrained = 0 then none
          else some { r with due := true }
        let removed := kept.length < s.scu.catalogue.length
        exec (.cleanupWalkEnd ecc) s = .next { s with
          stc := { s.stc with state := .listening, work := .idle }
          psi := { s.psi with beaconTimer := some 0, listeningTicks := 0 }
          odu := { s.odu with sendTimer := Config.second }
          scu := { s.scu with catalogue := kept }
          xtu := { s.xtu with sweep :=
            if s.xtu.heldList = [] then ⟨.idle, [], false⟩ else ⟨.running, s.xtu.heldList, decide removed⟩ }
          cqp := { s.cqp with
            causes := if removed then s.cqp.causes ||| Cause.catalogueChanged.bit else s.cqp.causes
            ringU := { s.cqp.ringU with notify := s.cqp.ringU.reading, reading := true }
            ringB := { s.cqp.ringB with inProgress := [{ e with phase := .settled ⟨e.kind, .b, e.position, e.request, .done,
              false, false, [.fixed 1 2, .fixed 1 s.stc.resetCause.byte, .fixed 2 (s.psi.incarnation.getD 0)]⟩ }] } } }))

/-- REBUILD-DONE orders the Held List by death epoch and starts the check walk; a visit leaves a covered entry, marks an uncovered
member of the journal and deletes any other, counting both, and the deletion that fills the batch posts it or leaves it waiting
(R46); with a full batch the visit of an entry to be deleted waits, and no other, the model's reading (assumption 32). The end
sets K to the largest epoch loaded, which the model keeps as it loads (its choice, assumption 27), and the marker VALID, and
enters LISTENING, completing REBUILD-DONE with K and the two counts (R48, R54, R190, R194). A batch that is not empty is posted,
or waits where the queue has no room, and does not hold the end back (R46); from the expiry minute on, every RETAINED record whose
expiry day has come becomes DUE and is removed when nothing holds it (R63, R192). The end is stated with every context FREE and
the sweep IDLE, as a reset leaves them. -/
def Obligations.CheckWalkDealsWithHeldList : Prop :=
  ∀ (ecc : Ecc) (s : State) (e : InProgress), ecc ≠ .uncorrectable →
    let death := fun h : Nat => ((s.extent h).bind ExtentRec.death).getD 0
    (s.offersB e .rebuildDone → ∃ l, exec (.rebuildDone ecc) s = .next { s.withPhaseB e .working with
        xtu := { s.xtu with heldList := l }
        stc := { s.stc with work := .checking l 0 0 } } ∧
      l.Perm s.xtu.heldList ∧ (l.map death).Pairwise (· ≤ ·) ∧
      ∀ d, l.filter (fun h => decide (death h = d)) = s.xtu.heldList.filter fun h => decide (death h = d)) ∧
    (∀ h rest deleted marked r, s.stc.state = .rebuild → s.stc.work = .checking (h :: rest) deleted marked → s.extent h = some r →
      let go := fun d m => { s.stc with work := .checking rest d m }
      (s.covered r = true → exec (.checkWalkVisit ecc) s = .next { s with stc := go deleted marked }) ∧
      (s.covered r = false → r.copy = some .awaiting → exec (.checkWalkVisit ecc) s = .next { s with
        stc := go deleted (marked + 1)
        xtu := { s.xtu with extents := tableInsert h { r with mark := true } s.xtu.extents } }) ∧
      (s.covered r = false → r.copy ≠ some .awaiting → 16 ≤ s.xtu.batch.length → exec (.checkWalkVisit ecc) s = .next s) ∧
      (s.covered r = false → r.copy ≠ some .awaiting → s.xtu.batch.length < 16 →
        let gone : Xtu := { s.xtu with
          sweep := { s.xtu.sweep with range := s.xtu.sweep.range.filter fun x => decide (x ≠ h) }
          extents := tableErase h s.xtu.extents
          heldList := s.xtu.heldList.filter fun x => decide (x ≠ h)
          batch := s.xtu.batch ++ [h]
          batchTimer := if s.xtu.batch = [] then 0 else s.xtu.batchTimer }
        ∃ t, exec (.checkWalkVisit ecc) s = .next t ∧ t.stc = go (deleted + 1) marked ∧
          accessedTo s t r.owner { s.owner r.owner with held := (s.owner r.owner).held - r.length } ∧
          (s.xtu.batch.length < 15 → t.xtu = gone ∧ t.cqp = s.cqp) ∧
          (s.xtu.batch.length = 15 → s.canHand .reclaim = true → s.xtu.sweep.state ≠ .paused →
            t.xtu = { gone with batch := [], batchTimer := 0, batchWaiting := false } ∧
            t.cqp = { s.cqp with
              notices := s.cqp.notices ++ [.reclaim (s.xtu.batch ++ [h])]
              waiting := s.cqp.waiting.filter fun v => decide (v ≠ .reclaim) }) ∧
          (s.xtu.batch.length = 15 → s.canHand .reclaim = false →
            t.xtu = { gone with batchWaiting := true } ∧ t.cqp = { s.cqp with waiting := (s.await .reclaim).cqp.waiting }) ∧
          t = { s with stc := t.stc, qsu := t.qsu, xtu := t.xtu, uvu := t.uvu, cqp := t.cqp })) ∧
    (∀ deleted marked, s.stc.state = .rebuild → s.stc.work = .checking [] deleted marked → s.cqp.ringB.inProgress = [e] →
      e.phase = .working → s.catalogueLaw → (∀ c ∈ s.rcu.contexts, c.state = .free) → s.xtu.sweep = ⟨.idle, [], false⟩ →
      s.xtu.heldList ≠ [] ∨ s.xtu.batch = [] ∨ s.canHand .reclaim = true →
      let k := max s.scu.current s.scu.loadedMax
      let falls := fun r : SnapRec =>
        r.due = false ∧ 60 * s.config.expiryMinute ≤ s.stc.clock.second ∧ r.expiryDay ≤ s.stc.clock.day
      let kept := s.scu.catalogue.filterMap fun r =>
        if ¬ falls r then some r
        else if s.scu.protectedSet.getLsbD r.group = false ∧ r.undrained = 0 then none
        else some { r with due := true }
      let posted : Xtu :=
        if s.xtu.batch = [] then s.xtu
        else if s.canHand .reclaim = true then { s.xtu with batch := [], batchTimer := 0, batchWaiting := false }
        else { s.xtu with batchWaiting := true }
      let port : Cqp :=
        if s.xtu.batch = [] then s.cqp
        else if s.canHand .reclaim = true then { s.cqp with
          notices := s.cqp.notices ++ [.reclaim s.xtu.batch], waiting := s.cqp.waiting.filter fun v => decide (v ≠ .reclaim) }
        else { s.cqp with waiting := (s.await .reclaim).cqp.waiting }
      exec (.checkWalkEnd ecc) s = .next (State.done { s with
        stc := { s.stc with state := .listening, work := .idle, marker := true }
        scu := { s.scu with current := k, catalogue := kept }
        psi := { s.psi with beaconTimer := some 0, listeningTicks := 0 }
        odu := { s.odu with sendTimer := Config.second }
        xtu := { posted with sweep :=
          if s.xtu.heldList = [] ∨ kept.length = s.scu.catalogue.length then ⟨.idle, [], false⟩
          else ⟨.running, s.xtu.heldList, decide (kept.length + 2 ≤ s.scu.catalogue.length)⟩ }
        cqp := { port with causes :=
          if kept.length < s.scu.catalogue.length then s.cqp.causes ||| Cause.catalogueChanged.bit else s.cqp.causes } }
        e [.fixed 4 k, .fixed 4 deleted, .fixed 4 marked]))

/-! ### The commands on owners and classes, and the loads -/

/-- SET-LIMITS (R10, R11): limits out of range or out of order, or no named time, refuse the command; NOW replaces the limits and
discards a pending pair; ROLLOVER stores the pair for the next day. Each is one access. SET-OWNER-CLASS replaces the class in one
access (R5), and SET-CLASS the three fields of a class record together (R4); a class above 15, a weight above 16 or an unnamed
policy refuses the command. -/
def Obligations.OwnersAndClassesAreSet : Prop :=
  (∀ (o : Nat) (soft hard : Option Nat) (effect : Option LimitsWhen) (ecc : Ecc) (s : State) (e : InProgress),
    s.offersB e (.setLimits o soft hard effect) → ecc ≠ .uncorrectable →
    let i := Instr.setLimits o soft hard effect ecc
    let out := ∃ l, (soft = some l ∨ hard = some l) ∧ (l = 0 ∨ 4294967294 < l)
    let crossed := ∃ a b, soft = some a ∧ hard = some b ∧ b < a
    let set := fun (r : OwnerRec) => ∃ t, exec i s = .next (t.done e []) ∧
      accessedTo s t o (s.closing r) ∧ t = { s with qsu := t.qsu, uvu := t.uvu }
    (out ∨ crossed ∨ effect = none → exec i s = .next (s.refusedWith e .badField)) ∧
    (¬ out → ¬ crossed → effect = some .now →
      set { s.opened o with soft := soft, hard := hard, pendingLimits := none }) ∧
    (¬ out → ¬ crossed → effect = some .rollover →
      set { s.opened o with pendingLimits := some ⟨soft, hard, s.stc.clock.day + 1⟩ })) ∧
  (∀ (o c : Nat) (ecc : Ecc) (s : State) (e : InProgress), s.offersB e (.setOwnerClass o c) → ecc ≠ .uncorrectable →
    (15 < c → exec (.setOwnerClass o c ecc) s = .next (s.refusedWith e .badField)) ∧
    (c ≤ 15 → ∃ t, exec (.setOwnerClass o c ecc) s = .next (t.done e []) ∧
      t = { s with qsu := t.qsu, uvu := t.uvu } ∧
      accessedTo s t o (s.closing { s.opened o with cls := c }))) ∧
  ∀ (c days w : Nat) (policy : Option Policy) (s : State) (e : InProgress), s.offersB e (.setClass c days w policy) →
    (15 < c ∨ 16 < w ∨ policy = none → exec (.setClass c days w policy) s = .next (s.refusedWith e .badField)) ∧
    ∀ p, policy = some p → c ≤ 15 → w ≤ 16 → exec (.setClass c days w policy) s =
      .next { s.done e [] with qsu := { s.qsu with classes := s.qsu.classes.set c ⟨days, w, p⟩ } }

/-- LOAD-OWNER replaces the class, the limits and the grace state of one record and drops its pending pair (R23); LOAD-SNAPSHOT
places one LOADED record at its epoch's position, K following (R70, R54). Each takes its tests first. That a grace expiry day
above 65,790, which R23 neither gives nor refuses, is stored as RUNNING with that day is the model's choice (assumption 42). -/
def Obligations.LoadsReplaceOneRecord : Prop :=
  (∀ (o c : Nat) (soft hard grace : Option Nat) (ecc : Ecc) (s : State) (e : InProgress),
    s.offersB e (.loadOwner o c soft hard grace) → ecc ≠ .uncorrectable →
    let i := Instr.loadOwner o c soft hard grace ecc
    let bad := 15 < c ∨ (∃ l, (soft = some l ∨ hard = some l) ∧ (l = 0 ∨ 4294967294 < l)) ∨
      (∃ a b, soft = some a ∧ hard = some b ∧ b < a) ∨ (grace ≠ none ∧ soft = none)
    (bad → exec i s = .next (s.refusedWith e .badField)) ∧
    (¬ bad → ∃ t, exec i s = .next (t.done e []) ∧ t = { s with qsu := t.qsu, uvu := s.uvu } ∧
      accessedTo s t o { s.owner o with
        cls := c, soft := soft, hard := hard, pendingLimits := none
        grace := match grace with
          | none => .none
          | some d => .running d })) ∧
  ∀ (epoch day second retention group : Nat) (ecc : Ecc) (s : State) (e : InProgress),
    s.offersB e (.loadSnapshot epoch day second retention group) → ecc ≠ .uncorrectable →
    let i := Instr.loadSnapshot epoch day second retention group ecc
    let bad := epoch = 0 ∨ 86399 < second ∨ retention = 0 ∨ 3650 < retention ∨ 7 < group
    let known := ∃ r ∈ s.scu.catalogue, r.epoch = epoch
    (bad → exec i s = .next (s.refusedWith e .badField)) ∧
    (¬ bad → known → exec i s = .next (s.refusedWith e .duplicate)) ∧
    (¬ bad → ¬ known → 64 ≤ s.scu.catalogue.length → exec i s = .next (s.refusedWith e .catalogueFull)) ∧
    ∀ before after, ¬ bad → ¬ known → s.scu.catalogue.length < 64 → s.scu.catalogue = before ++ after →
      (∀ r ∈ before, r.epoch < epoch) → (∀ r, after.head? = some r → epoch < r.epoch) →
      exec i s = .next { s.done e [] with scu := { s.scu with
        catalogue := before ++ ⟨epoch, day, second, .loaded, retention, day + retention, group, 0, false⟩ :: after
        current := max s.scu.current epoch } }

/-- LOAD-EXTENT takes the tests of R47 in order, then makes one record LIVE or HELD, raises L or H, appends a HELD handle to the
Held List, and a PENDING extent to the open generation, and keeps the largest epoch loaded for the end of the check walk, the
model's choice (assumption 27). The Extent Table is read by handle, and a table kept by number gives back what was last written
under a number, nothing where it was taken out, and what it gave before under every other. -/
def Obligations.LoadExtentMakesOneRecord : Prop :=
  (∀ (α : Type) (t : Table α) (k a : Nat) (v : α),
    tableFind a (tableInsert k v t) = (if a = k then some v else tableFind a t) ∧
    tableFind a (tableErase k t) = (if a = k then none else tableFind a t)) ∧
  (∀ (s : State) (h : Nat), s.extent h = tableFind h s.xtu.extents) ∧
  ∀ (h o v l : Nat) (state : Option ExtentState) (b : Nat) (death : Option Nat) (copy : Option CopyState) (ecc : Ecc)
    (s : State) (e : InProgress),
    s.offersB e (.loadExtent h o v l state b death copy) → ecc ≠ .uncorrectable →
    let i := Instr.loadExtent h o v l state b death copy ecc
    let bad := h = 0 ∨ l = 0 ∨ 256 < l ∨ 15 < v ∨ copy = none ∨
      ¬ (state = some .live ∧ death = none ∨ state = some .held ∧ ∃ d, death = some d ∧ b < d) ∨
      copy = some .awaiting ∧ ∃ x, s.cju.openGen.getLast? = some x ∧ b < x.birth
    (bad → exec i s = .next (s.refusedWith e .badField)) ∧
    (∀ r, ¬ bad → s.extent h = some r → exec i s = .next (s.refusedWith e .duplicate)) ∧
    (¬ bad → s.extent h = none → 4194304 ≤ s.xtu.extents.length → exec i s = .next (s.refusedWith e .tableFull)) ∧
    ∀ c st, ¬ bad → s.extent h = none → s.xtu.extents.length < 4194304 → copy = some c → state = some st →
      ∃ t, exec i s = .next (t.done e []) ∧
        t.xtu = { s.xtu with
          extents := tableInsert h ⟨o, v, l, st, some b, death, some c, false, none⟩ s.xtu.extents
          heldList := if st = .held then s.xtu.heldList ++ [h] else s.xtu.heldList } ∧
        t.cju = { s.cju with openGen := if c = .awaiting then s.cju.openGen ++ [⟨h, l, b⟩] else s.cju.openGen } ∧
        t.scu = { s.scu with loadedMax := max s.scu.loadedMax (max b (death.getD 0)) } ∧
        accessedTo s t o (let r := s.owner o
          if st = .held then { r with held := r.held + l } else { r with live := r.live + l }) ∧
        t = { s with qsu := t.qsu, xtu := t.xtu, scu := t.scu, cju := t.cju }

/-- The four inspections answer DONE with the items of their rules and change nothing else, but that INSPECT-OWNER is an access,
whose opening steps it reports (R24, R71, R127, R143), its figures being those after them, the model's reading (assumption 36); an
INSPECT-PEERS of a station above 15 is refused. The items stand in the order of the rules with the widths of R196. The model's
choices: which items take a presence bit of their own, that SELF and a peer carry each only their own items of the entry, and the
widths R196 does not name (assumption 13); and that the night figures leave out what other items of the answer show (assumption
28). -/
def Obligations.InspectsChangeNothing : Prop :=
  ∀ (ecc : Ecc) (s : State) (e : InProgress), ecc ≠ .uncorrectable →
    let may := fun (width : Nat) (v : Option Nat) => Item.optional v.isSome [(width, v.getD 0)]
    let flag := fun b : Bool => Item.fixed 1 (if b = true then 1 else 0)
    (∀ o, s.offersB e (.inspectOwner o) → ∃ t : State,
      let r := t.owner o
      let w := (s.qsu.classes.getD r.cls .afterReset).weight
      let Wh := (r.held * w + 15) / 16
      let C := r.live + Wh
      exec (.inspectOwner o ecc) s = .next (t.done e (
        [.fixed 2 o, .fixed 1 r.cls, may 4 r.soft, may 4 r.hard, may 4 (r.pendingLimits.bind PendingLimits.soft),
          may 4 (r.pendingLimits.bind PendingLimits.hard), may 4 (r.pendingLimits.map PendingLimits.applyDay),
          .fixed 4 r.live, .fixed 4 r.reserved, .fixed 4 r.held, .fixed 1 w, .fixed 4 Wh, .fixed 4 C, .fixed 8 r.peerSum,
          .fixed 4 (min (C + r.reserved + r.peerSum) 4294967295)] ++
        (match r.grace with
          | .none => [.fixed 1 1, .fixed 4 0]
          | .running d => [.fixed 1 (if d ≤ s.stc.clock.day then 3 else 2), .fixed 4 d]) ++
        [.fixed 4 r.lastAnnounced, flag r.dirty, .fixed 1 r.contributions.length, flag s.provisional])) ∧
      accessedTo s t o (s.closing (s.opened o)) ∧ t = { s with qsu := t.qsu, uvu := t.uvu }) ∧
    (∀ n, s.offersB e (.inspectSnapshots n) →
      let here := s.scu.catalogue.filter fun r => decide (n ≤ r.epoch)
      let origin := fun r : SnapRec => match r.origin with
        | .localCall => [Item.fixed 1 1, .fixed 1 0, .fixed 1 0]
        | .peerCall p k => [.fixed 1 2, .fixed 1 p, .fixed 1 (if k = .admin then 1 else 2)]
        | .nightCall => [.fixed 1 3, .fixed 1 0, .fixed 1 0]
        | .loaded => [.fixed 1 4, .fixed 1 0, .fixed 1 0]
      let record := fun r : SnapRec =>
        [Item.align4, .fixed 4 r.epoch, .fixed 2 r.takenDay, .fixed 4 r.takenSecond] ++ origin r ++
        [.fixed 2 r.retention, .fixed 4 r.expiryDay, .fixed 1 r.group, .fixed 4 r.undrained, .fixed 1 (s.pins r.epoch),
          .fixed 1 (if r.due = true then 2 else 1)]
      exec (.inspectSnapshots n ecc) s = .next (s.done e (
        [.fixed 4 s.scu.current, .fixed 4 s.scu.highestHeard, may 4 s.scu.lastMissed, .fixed 1 s.scu.catalogue.length,
          .fixed 1 s.scu.protectedSet.toNat] ++ (here.take 4).flatMap record ++ [may 4 (here[4]?.map SnapRec.epoch)]))) ∧
    (∀ p o, s.offersB e (.inspectPeers p o) →
      (15 < p → exec (.inspectPeers p o ecc) s = .next (s.refusedWith e .badField)) ∧
      (p ≤ 15 →
        let own := p = s.stc.stationNumber
        let x := s.peer p
        ∃ (named : List Item) (contribution : Item) (walk : List Item),
          (own → named = [.fixed 1 p, may 2 s.psi.incarnation, .fixed 2 s.psi.sequence]) ∧
          (¬ own → ∃ (state : Nat) (beacon : Item),
            (x.state = .absent ∧ state = 1 ∨ x.state = .present ∧ state = 2 ∨ x.state = .silent ∧ state = 3) ∧
            (x.beacon = none → beacon = .optional false [(1, 0), (2, 0), (4, 0), (4, 0)]) ∧
            (∀ b, x.beacon = some b → beacon =
              .optional true [(1, if b.night = true then 1 else 0), (2, b.cycle), (4, b.epoch), (4, b.demand)]) ∧
            named = [.fixed 1 state, may 2 x.incarnation, may 2 x.lastSequence, .fixed 1 x.silence,
              .fixed 2 (x.forgetTimer / (60 * Config.second)), beacon, may 2 x.reference, flag x.caughtUp, may 2 x.purgeTarget]) ∧
          (∀ q c, ¬ own → o = some q → (s.owner q).contributions.find? (fun c => decide (c.station = p)) = some c →
            contribution = .optional true [(4, c.value), (2, c.incarnation)]) ∧
          (own ∨ o = none ∨ (∃ q, o = some q ∧ ∀ c ∈ (s.owner q).contributions, c.station ≠ p) →
            contribution = .optional false [(4, 0), (2, 0)]) ∧
          (s.uvu.walk = none → walk = [.fixed 1 1, .fixed 1 0, .fixed 1 0, .fixed 2 0, .fixed 2 0]) ∧
          (∀ q n, s.uvu.walk = some ⟨q, .all, n⟩ → walk = [.fixed 1 2, .fixed 1 q, .fixed 1 1, .fixed 2 0, .fixed 2 n]) ∧
          (∀ q v n, s.uvu.walk = some ⟨q, .stale v, n⟩ → walk = [.fixed 1 2, .fixed 1 q, .fixed 1 2, .fixed 2 v, .fixed 2 n]) ∧
          exec (.inspectPeers p o ecc) s = .next (s.done e (named ++
            [contribution, .fixed 4 s.uvu.poolInUse, flag s.uvu.viewIncomplete, .fixed 2 s.uvu.dirtyList.length,
              flag s.uvu.overflowed, .fixed 2 s.uvu.walkCycle, .fixed 2 s.uvu.sweepPointer, .fixed 1 s.uvu.consecutiveDirty] ++
            walk ++ [.fixed 1 (s.uvu.allRequests.length + s.uvu.staleRequests.length), .fixed 4 s.psi.overflowCount,
              .fixed 4 s.psi.errorCount, .fixed 4 s.psi.dropCount])))) ∧
    (s.offersB e .inspectNight →
      let c := s.cju
      let f := c.figures
      let inStep := fun k : CopyStep => Item.fixed 4 (c.frozen.filter fun y => decide (y.step = k)).length
      let head := match c.frozen with
        | [] => Item.optional false [(4, 0), (4, 0), (1, 0), (1, 0), (1, 0)]
        | y :: _ => .optional true [(4, y.handle), (4, y.tag), (1, match y.step with
            | .waiting => 1 | .staging => 2 | .ready => 3 | .inFlight => 4), (1, y.attempts), (1, y.nightsFailed)]
      exec (.inspectNight ecc) s = .next (s.done e
        [.fixed 1 (match c.window with | .closed => 1 | .opened => 2 | .skipped => 3 | .settling => 4), .fixed 4 c.nightNumber,
          may 4 c.nightly, may 4 (c.windowLeft.map fun n => n / Config.second), flag f.skipped, .fixed 4 f.carriedOver,
          .fixed 4 f.frozenTonight, .fixed 4 f.extentsCopied, .fixed 4 f.blocksCopied, .fixed 4 f.failures,
          .fixed 4 c.openGen.length, .fixed 4 (c.openGen.map OpenEntry.length).sum, may 4 (c.openGen.head?.map OpenEntry.birth),
          may 4 (c.openGen.getLast?.map OpenEntry.birth), .fixed 4 c.frozen.length,
          .fixed 4 (c.frozen.map FrozenEntry.length).sum, inStep .waiting, inStep .staging, inStep .ready, inStep .inFlight, head,
          .fixed 1 s.config.selectorKey, .fixed 1 s.config.selectorMask]))

/-! ### The Station Clock and the Catalogue -/

/-- SET-CLOCK gives the clock the day and second, completing with the old ones, and is no rollover. At or after the expiry minute
and outside REBUILD it takes an expiry pass for the day it sets (R63): exactly the RETAINED records whose expiry day has come are
dealt with, one that no open context pins, whose group is not protected and whose undrained count is 0 being removed and any other
becoming DUE; each removal signals the sweep, and CATALOGUE-CHANGED is raised (R41, R66, R67). Nothing else changes. Only the
expiry pass meets table memory, and a SET-CLOCK that takes none is what it is whatever that answers. That the fraction of the
second becomes 0 and a noted expiry or window moment is dropped is the model's choice (assumption 17). CLOCK_ROLLOVER, where the
last second of the day has run out, returns the second to 0 and raises the day, which stops at 65,535 (R193). -/
def Obligations.ClockIsSetAndRollsOver : Prop :=
  (∀ (day second : Nat) (ecc : Ecc) (s : State) (e : InProgress), s.offersB e (.setClock day second) →
    let set : State := { s with stc := { s.stc with clock := ⟨day, second, 0⟩, expiryMoment := false, windowMoment := false } }
    let items := [.fixed 2 s.stc.clock.day, .fixed 4 s.stc.clock.second]
    (86399 < second → exec (.setClock day second ecc) s = .next (s.refusedWith e .badField)) ∧
    (second ≤ 86399 → s.operates = false ∨ second < 60 * s.config.expiryMinute →
      exec (.setClock day second ecc) s = .next (set.done e items)) ∧
    (second ≤ 86399 → s.operates = true → 60 * s.config.expiryMinute ≤ second → ecc ≠ .uncorrectable →
      exec (.setClock day second ecc) s = .next (set.expiryPass.done e items) ∧
      (s.catalogueLaw →
        let kept := s.scu.catalogue.filterMap fun r =>
          if r.due = true ∨ day < r.expiryDay then some r
          else if s.pins r.epoch = 0 ∧ s.scu.protectedSet.getLsbD r.group = false ∧ r.undrained = 0 then none
          else some { r with due := true }
        let removed := s.scu.catalogue.length - kept.length
        ∃ xtu cqp, sweepSignalledBy s removed xtu cqp ∧ exec (.setClock day second ecc) s = .next ({ set with
          scu := { s.scu with catalogue := kept }
          xtu := xtu
          cqp := { cqp with
            causes := if removed = 0 then s.cqp.causes else s.cqp.causes ||| Cause.catalogueChanged.bit } }.done e items)))) ∧
  ∀ s : State, s.stc.state ≠ .loading → s.stc.clock.second = 86399 → s.stc.clock.phase = Config.second →
    exec .clockRollover s = .next { s with stc := { s.stc with
      clock := ⟨min 65535 (s.stc.clock.day + 1), 0, 0⟩
      expiryMoment := s.stc.expiryMoment || decide (s.config.expiryMinute = 0)
      windowMoment := s.stc.windowMoment || decide (s.config.nightStart = 0) } }

/-- CALL-SNAPSHOT takes the tests of R56 in order. The epoch is one above K, highest heard and every newest epoch heard from a
PRESENT peer (R57); the record joins the tail with the retention clamped to 1 to 3,650 days, K becomes its epoch, and in ACTIVE
the call is placed in its holding slot (R58). -/
def Obligations.CallSnapshotMakesARecord : Prop :=
  ∀ (retention group : Nat) (ecc : Ecc) (s : State) (e : InProgress),
    s.offersB e (.callSnapshot retention group) → ecc ≠ .uncorrectable →
    let i := Instr.callSnapshot retention group ecc
    let n := s.chosenEpoch
    let kept := if retention = 0 then 1 else if 3650 < retention then 3650 else retention
    let c := s.stc.clock
    (∀ p x, (p, x) ∈ s.peerEntries ↔ p ≠ s.stc.stationNumber ∧ s.psi.peers[p]? = some x) ∧
    (s.scu.current < n ∧ s.scu.highestHeard < n ∧
      (∀ p x b, (p, x) ∈ s.peerEntries → x.state = .present → x.beacon = some b → b.epoch < n) ∧
      (n = s.scu.current + 1 ∨ n = s.scu.highestHeard + 1 ∨
        ∃ p x b, (p, x) ∈ s.peerEntries ∧ x.state = .present ∧ x.beacon = some b ∧ n = b.epoch + 1)) ∧
    (7 < group → exec i s = .next (s.refusedWith e .badField)) ∧
    (group ≤ 7 → s.psi.snapcall.isSome = true → exec i s = .next (s.refusedWith e .callPending)) ∧
    (group ≤ 7 → s.psi.snapcall = none → 64 ≤ s.scu.catalogue.length → exec i s = .next (s.refusedWith e .catalogueFull)) ∧
    (group ≤ 7 → s.psi.snapcall = none → s.scu.catalogue.length < 64 → 4294967295 < n →
      exec i s = .next (s.refusedWith e .epochExhausted)) ∧
    (group ≤ 7 → s.psi.snapcall = none → s.scu.catalogue.length < 64 → n ≤ 4294967295 →
      exec i s = .next { s.done e [.fixed 4 n, .fixed 2 kept, .fixed 4 (c.day + kept)] with
        scu := { s.scu with
          catalogue := s.scu.catalogue ++ [⟨n, c.day, c.second, .localCall, kept, c.day + kept, group, 0, false⟩]
          current := n }
        psi := if s.stc.state = .active then { s.psi with
            snapcall := some ⟨.snapcall n .admin, 0⟩, tx := if s.psi.tx = .idle then .deferring else s.psi.tx }
          else s.psi })

/-- The removal test of R66: a DUE record is removed, in the same event, exactly when no open context names its epoch, its group
is not protected and its undrained count is 0; a record that fails, or is RETAINED, stays as it is. An expiry pass (R63): exactly
the RETAINED records whose expiry day has come are dealt with; one that no open context pins, whose group is not protected and
whose undrained count is 0 is removed, any other becomes DUE, and every other record is as it was. Each removal signals the sweep
and raises CATALOGUE-CHANGED (R41, R67). The pass is taken when the running clock has reached the expiry minute, and outside the
operating states the moment passes. A record's pin count is that of the contexts in use that name its epoch (R53). -/
def Obligations.DueRecordsAreRemoved : Prop :=
  (∀ (s : State) (epoch : Nat),
    s.pins epoch = (s.rcu.contexts.filter fun c => decide (c.state ≠ .free ∧ c.epoch = some epoch)).length) ∧
  (∀ (s : State) (r : SnapRec), s.snapshot r.epoch = some r →
    let passes := r.due = true ∧ (∀ c ∈ s.rcu.contexts, c.epoch = some r.epoch → c.state = .free) ∧
      s.scu.protectedSet.getLsbD r.group = false ∧ r.undrained = 0
    let t := s.removalTest r.epoch
    (¬ passes → t = s) ∧
    (passes → t.scu = { s.scu with catalogue := s.scu.catalogue.filter fun x => decide (x.epoch ≠ r.epoch) } ∧
      t.snapshot r.epoch = none ∧ t.cqp.causes.getLsbD 7 = true ∧
      (s.xtu.sweep.state ≠ .idle → t.xtu = { s.xtu with sweep := { s.xtu.sweep with again := true } }) ∧
      (s.xtu.sweep.state = .idle → s.xtu.heldList ≠ [] →
        t.xtu = { s.xtu with sweep := ⟨.running, s.xtu.heldList, false⟩ }))) ∧
  ∀ (ecc : Ecc) (s : State), s.stc.expiryMoment = true → ecc ≠ .uncorrectable →
    (s.operates = false → exec (.expiryPass ecc) s = .next { s with stc := { s.stc with expiryMoment := false } }) ∧
    (s.operates = true → s.catalogueLaw →
      let kept := s.scu.catalogue.filterMap fun r =>
        if r.due = true ∨ s.stc.clock.day < r.expiryDay then some r
        else if s.pins r.epoch = 0 ∧ s.scu.protectedSet.getLsbD r.group = false ∧ r.undrained = 0 then none
        else some { r with due := true }
      let removed := s.scu.catalogue.length - kept.length
      ∃ xtu cqp, sweepSignalledBy s removed xtu cqp ∧ exec (.expiryPass ecc) s = .next { s with
        stc := { s.stc with expiryMoment := false }
        scu := { s.scu with catalogue := kept }
        xtu := xtu
        cqp := { cqp with causes := if removed = 0 then s.cqp.causes else s.cqp.causes ||| Cause.catalogueChanged.bit } })

/-- EXPIRE-SNAPSHOT makes a RETAINED record DUE today and takes its test, answered REMOVED, the sweep being signalled and no
attention raised, or DEFERRED with what holds the record (R41, R64, R67). PROTECT-GROUP and UNPROTECT-GROUP change the one bit of
the set. UNPROTECT-GROUP tests nothing in REBUILD and for a group not in the set; outside REBUILD it removes exactly the DUE
records of the group that no context pins and whose undrained count is 0, each signalling the sweep, and says how many (R65). -/
def Obligations.SnapshotsExpireAndAreProtected : Prop :=
  (∀ (epoch : Nat) (ecc : Ecc) (s : State) (e : InProgress), s.offersB e (.expireSnapshot epoch) → ecc ≠ .uncorrectable →
    let i := Instr.expireSnapshot epoch ecc
    (s.snapshot epoch = none → exec i s = .next (s.refusedWith e .noSnapshot)) ∧
    ∀ r, s.snapshot epoch = some r →
      let holds := s.pins epoch ≠ 0 ∨ s.scu.protectedSet.getLsbD r.group = true ∨ r.undrained ≠ 0
      (holds → exec i s = .next { s.done e [.fixed 4 epoch, .fixed 1 2, .fixed 1 (s.pins epoch),
          .fixed 1 (if s.scu.protectedSet.getLsbD r.group then 1 else 0), .fixed 4 r.undrained] with
        scu := { s.scu with catalogue := s.scu.catalogue.map fun x =>
          if x.epoch ≠ epoch then x
          else if r.due then r else { r with due := true, expiryDay := s.stc.clock.day } } }) ∧
      (¬ holds → ∃ xtu cqp, sweepSignalled s xtu cqp ∧ exec i s = .next (State.done { s with
        scu := { s.scu with catalogue := s.scu.catalogue.filter fun x => decide (x.epoch ≠ epoch) }
        xtu := xtu
        cqp := cqp } e [.fixed 4 epoch, .fixed 1 1]))) ∧
  (∀ (g : Nat) (ecc : Ecc) (s : State) (e : InProgress), s.offersB e (.protectGroup g) → ecc ≠ .uncorrectable →
    (7 < g → exec (.protectGroup g ecc) s = .next (s.refusedWith e .badField)) ∧
    (g ≤ 7 → ∃ set : BitVec 8, exec (.protectGroup g ecc) s =
        .next { s.done e [.fixed 1 set.toNat] with scu := { s.scu with protectedSet := set } } ∧
      ∀ n, set.getLsbD n = (decide (n = g) || s.scu.protectedSet.getLsbD n))) ∧
  ∀ (g : Nat) (ecc : Ecc) (s : State) (e : InProgress), s.offersB e (.unprotectGroup g) → ecc ≠ .uncorrectable →
    (7 < g → exec (.unprotectGroup g ecc) s = .next (s.refusedWith e .badField)) ∧
    (g ≤ 7 →
      s.stc.state = .rebuild ∨ s.scu.protectedSet.getLsbD g = false ∨ (∀ r ∈ s.scu.catalogue, r.due = true → r.group ≠ g) →
      ∃ set : BitVec 8, exec (.unprotectGroup g ecc) s =
        .next { s.done e [.fixed 1 set.toNat, .fixed 1 0] with scu := { s.scu with protectedSet := set } } ∧
      ∀ n, set.getLsbD n = (decide (n ≠ g) && s.scu.protectedSet.getLsbD n)) ∧
    (g ≤ 7 → s.stc.state ≠ .rebuild → s.scu.protectedSet.getLsbD g = true → s.catalogueLaw →
      let kept := s.scu.catalogue.filter fun r =>
        !(r.due && decide (r.group = g) && decide (s.pins r.epoch = 0) && decide (r.undrained = 0))
      let removed := s.scu.catalogue.length - kept.length
      ∃ (set : BitVec 8) (xtu : Xtu) (cqp : Cqp), (∀ n, set.getLsbD n = (decide (n ≠ g) && s.scu.protectedSet.getLsbD n)) ∧
        sweepSignalledBy s removed xtu cqp ∧
        exec (.unprotectGroup g ecc) s = .next (State.done { s with
          scu := { s.scu with protectedSet := set, catalogue := kept }
          xtu := xtu
          cqp := { cqp with causes := if removed = 0 then s.cqp.causes else s.cqp.causes ||| Cause.catalogueChanged.bit } }
          e [.fixed 1 set.toNat, .fixed 1 removed]))

/-! ### Restore contexts -/

/-- A restore command waits while RCU has other work in hand, or an idle expiry that is its next (R76, R87). That it waits until
no context's deadline is passed any more, a command that comes between two expiries included, is the model's choice (assumption
37). Else RESTORE-OPEN takes the lowest-numbered FREE context for a Catalogue record and pins it (R68, R78), and RESTORE-ITEM the
tests of R79 in order, restarting the deadline of the context it reaches (R77) and claiming the new handle (R80). -/
def Obligations.RestoresOpenAndClaim : Prop :=
  (∀ (i : Instr) (ecc : Ecc) (s : State) (e : InProgress), ecc ≠ .uncorrectable →
    ((∃ epoch owner override tag, i = .restoreOpen epoch owner override tag ecc ∧
        s.offersB e (.restoreOpen epoch owner override tag)) ∨
      (∃ x tag source h v, i = .restoreItem x tag source h v ecc ∧ s.offersB e (.restoreItem x tag source h v)) ∨
      (∃ x tag n, i = .restoreCommit x tag n ecc ∧ s.offersB e (.restoreCommit x tag)) ∨
      ∃ x tag n, i = .restoreAbort x tag n ecc ∧ s.offersB e (.restoreAbort x tag)) →
    (s.rcu.work ≠ none ∨ (∃ y ∈ s.xtu.claims, y.claimant = .item) ∨
      ∃ (j : Nat) (c : Context) (n : Nat), s.rcu.contexts[j]? = some c ∧ c.state ≠ .free ∧ c.idle = some n ∧ s.config.idleTimeout * 25000000 ≤ n) →
    exec i s = .next s) ∧
  (∀ (epoch owner : Nat) (override : Option Bool) (tag : Nat) (ecc : Ecc) (s : State) (e : InProgress),
    s.offersB e (.restoreOpen epoch owner override tag) → ecc ≠ .uncorrectable → s.rcuWaits = false →
    let i := Instr.restoreOpen epoch owner override tag ecc
    (override = none → exec i s = .next (s.refusedWith e .badField)) ∧
    ∀ o, override = some o →
      (s.snapshot epoch = none → exec i s = .next (s.refusedWith e .noSnapshot)) ∧
      ∀ r, s.snapshot epoch = some r →
        ((∀ c ∈ s.rcu.contexts, c.state ≠ .free) → exec i s = .next (s.refusedWith e .contextFull)) ∧
        ∀ before c after, s.rcu.contexts = before ++ c :: after → (∀ x ∈ before, x.state ≠ .free) → c.state = .free →
          exec i s = .next { s.done e [.fixed 1 before.length, .fixed 4 tag, .fixed 4 epoch, .fixed 1 (if r.due then 2 else 1)] with
            rcu := { s.rcu with contexts := before ++ ⟨.opened, some epoch, some owner, o, some tag, [], some 0⟩ :: after } }) ∧
  (∀ s : State, s.rcuWaits = false ↔ s.rcu.work = none ∧ (∀ y ∈ s.xtu.claims, y.claimant ≠ .item) ∧
    ∀ (j : Nat) (c : Context) (n : Nat), s.rcu.contexts[j]? = some c → c.state ≠ .free → c.idle = some n → n < s.config.idleTimeout * 25000000) ∧
  ∀ (x tag source h v : Nat) (ecc : Ecc) (s : State) (e : InProgress),
    s.offersB e (.restoreItem x tag source h v) → ecc ≠ .uncorrectable → s.rcuWaits = false →
    let i := Instr.restoreItem x tag source h v ecc
    let bad := 7 < x ∨ h = 0 ∨ 15 < v
    (bad → exec i s = .next (s.refusedWith e .badField)) ∧
    (¬ bad → (∀ c, s.rcu.contexts[x]? = some c → c.state = .free ∨ c.tag ≠ some tag) →
      exec i s = .next (s.refusedWith e .noContext)) ∧
    ∀ c, ¬ bad → s.rcu.contexts[x]? = some c → c.state ≠ .free → c.tag = some tag →
      let reached : State := { s with rcu := { s.rcu with contexts := s.rcu.contexts.set x { c with idle := some 0 } } }
      let refused := fun o => exec i s = .next (reached.refusedWith e o)
      let claimed := ∃ y ∈ s.xtu.claims, y.handle = h
      (c.state = .limited → refused .limited) ∧
      (c.state = .opened → 512 ≤ c.items.length → refused .itemLimit) ∧
      (c.state = .opened → c.items.length < 512 →
        ((∀ r, s.extent source = some r → ∀ n, c.epoch = some n → r.visible n = false) → c.epoch ≠ none → refused .notVisible) ∧
        ∀ r n, c.epoch = some n → s.extent source = some r → r.visible n = true →
          ((s.extent h).isSome = true ∨ claimed → refused .duplicate) ∧
          (s.extent h = none → ¬ claimed → 4194304 ≤ s.xtu.extents.length + s.xtu.claims.length → refused .tableFull) ∧
          (s.extent h = none → ¬ claimed → s.xtu.extents.length + s.xtu.claims.length < 4194304 →
            exec i s = .next { reached.withPhaseB e (.claimed r.length) with
              xtu := { s.xtu with claims := s.xtu.claims ++ [⟨h, .item⟩] } }))

/-- The item that awaits its decision. A grant reserves it in the same access (R81). A denial is settled by the first row of R82
that matches the override flag, the class policy and the station default: reserved all the same by a second access (R17), refused,
or refused with the context LIMITED. Either way the claim ends and the flags are those of the decision; the owner record is the
one the opening steps leave, with R raised where the item is reserved, and grace re-evaluated. The figures carried are the
context's items and their blocks, as the decision leaves them. The model's choices: that the state LIMITED is carried without a
presence bit (assumption 13); that the second access of an item reserved all the same falls in this step (assumption 36); and that
a class with 0 grace days is denied in the access that starts its period (assumption 43). -/
def Obligations.RestoreItemIsDecided : Prop :=
  ∀ (ecc : Ecc) (s : State) (e : InProgress) (x tag source h v n o : Nat) (c : Context),
    s.operates = true → ecc ≠ .uncorrectable → s.cqp.ringB.inProgress = [e] →
    e.command = some (.restoreItem x tag source h v) → e.phase = .claimed n → s.rcu.contexts[x]? = some c → c.owner = some o →
    let r := s.opened o
    let d := s.decision r n
    let policy := (s.qsu.classes.getD r.cls .afterReset).policy
    let granted := d = .granted ∨ d = .grantedWarn
    let forced := c.override = true ∨ policy = .allow
    let limits := policy = .partly ∨ policy = .asStation ∧ s.config.defaultPartial = true
    let unclaimed := { s.xtu with claims := s.xtu.claims.filter fun y => decide (y.handle ≠ h) }
    let flags := fun (code : OutcomeCode) (y : OwnerRec) items => s.answered e code s.provisional (aboveLimit y.soft (s.standing y)) items
    let raised : OwnerRec := { r with reserved := r.reserved + n }
    let fresh : ExtentRec := ⟨o, v, n, .reserved, none, none, none, false, some x⟩
    (∀ (t : State) (y : Context), t.rcu.contexts[x]? = some y → t.itemFigures x =
      [.fixed 4 y.items.length, .fixed 4 (y.items.map fun j => ((t.extent j).map ExtentRec.length).getD 0).sum]) ∧
    ∃ t, exec (.restoreItemAdmission ecc) s = .next t ∧
      t = { s with cqp := t.cqp, qsu := t.qsu, xtu := t.xtu, rcu := t.rcu, uvu := t.uvu } ∧
      t.qsu.classes = s.qsu.classes ∧ (∀ p, p ≠ o → t.owner p = s.owner p) ∧ t.uvu = s.uvu ∧
      (granted ∨ forced →
        t.owner o = { raised with grace := s.graceAfter raised } ∧
        t.xtu = { unclaimed with extents := tableInsert h fresh s.xtu.extents } ∧
        t.rcu = { s.rcu with contexts := s.rcu.contexts.set x { c with items := c.items ++ [h] } }) ∧
      (granted → t.cqp = (flags d raised (.fixed 4 h :: t.itemFigures x)).cqp) ∧
      (¬ granted → forced → t.cqp = (flags .admittedOver r (.fixed 1 d.number :: .fixed 4 h :: t.itemFigures x)).cqp) ∧
      (¬ granted → ¬ forced → t.owner o = { r with grace := s.graceAfter r } ∧ t.xtu = unclaimed) ∧
      (¬ granted → ¬ forced → ¬ limits → t.rcu = s.rcu ∧
        t.cqp = (flags .refusedLimit r (.fixed 1 d.number :: t.itemFigures x)).cqp) ∧
      (¬ granted → ¬ forced → limits →
        t.rcu = { s.rcu with contexts := s.rcu.contexts.set x { c with state := .limited } } ∧
        t.cqp = (flags .refusedLimit r (.fixed 1 d.number :: (t.itemFigures x ++ [.fixed 1 3]))).cqp)

/-- The end of a context by RESTORE-COMMIT, RESTORE-ABORT or an idle deadline that has passed (R84, R86, R87), begun by this step
or gone on with. With no item left the context becomes FREE at once. Its last item is committed, its record becoming LIVE with
birth K while R falls and L rises, or else deleted while R falls, and then the context becomes FREE: its record, where it is DUE
and nothing holds it any more, is removed (R89), a command completes with what was done, and an expiry raises RESTORE-EXPIRED. An
item that is not the last leaves the work in hand with its two counts, the deadline restarted where a command has begun it (R77),
and taking m + n items is taking m and then n (R85); that a step carries how many items it deals with before events of other units
may fall is the model's choice (assumption 7). So it is that of several contexts whose deadlines have passed the one whose
IDLE_EXPIRY comes first is taken, and that a RESTORE-COMMIT or RESTORE-ABORT waits, as for other work in hand, until no context's
deadline is passed any more (assumption 37). A RESTORE-COMMIT or RESTORE-ABORT that RCU takes with a context above 7 is refused
BAD-FIELD, and one that does not reach its context, FREE or under another tag, NO-CONTEXT; either refusal changes nothing else and
restarts no deadline (R77, R84, R86). While RCU has other work in hand the command waits (R76). -/
def Obligations.RestoreContextsEnd : Prop :=
  (∀ (commits : Bool) (ecc : Ecc) (s : State) (e : InProgress) (x tag budget : Nat),
    let i := if commits = true then Instr.restoreCommit x tag budget ecc else Instr.restoreAbort x tag budget ecc
    let command : HostCommand := if commits = true then .restoreCommit x tag else .restoreAbort x tag
    let reaches := ∃ c, s.rcu.contexts[x]? = some c ∧ c.state ≠ .free ∧ c.tag = some tag
    s.offersB e command →
    (s.rcuWaits = true → exec i s = .next s) ∧
    (s.rcuWaits = false → 7 < x → exec i s = .next (s.refusedWith e .badField)) ∧
    (s.rcuWaits = false → x ≤ 7 → ¬ reaches → exec i s = .next (s.refusedWith e .noContext))) ∧
  ∀ (kind : EndKind) (ecc : Ecc) (s : State) (e : InProgress) (x tag epoch k b : Nat) (c : Context),
    s.operates = true → ecc ≠ .uncorrectable → s.rcu.contexts[x]? = some c → c.state ≠ .free → c.tag = some tag →
    c.epoch = some epoch → x < 8 →
    let row := fun (budget : Nat) => match kind with
      | .commit => Instr.restoreCommit x tag budget ecc
      | .abort => Instr.restoreAbort x tag budget ecc
      | .expiry => Instr.idleExpiry x budget ecc
    let command : HostCommand := if kind = .commit then .restoreCommit x tag else .restoreAbort x tag
    let begins := s.rcu.work = none ∧ k = 0 ∧ b = 0 ∧ (∀ y ∈ s.xtu.claims, y.claimant ≠ .item) ∧
      (kind ≠ .expiry → s.offersB e command ∧ s.rcuWaits = false) ∧
      (kind = .expiry → ∃ n, c.idle = some n ∧ s.config.idleTimeout * Config.second ≤ n)
    let goesOn := s.rcu.work = some ⟨kind, x, k, b⟩ ∧
      (kind ≠ .expiry → s.cqp.ringB.inProgress = [e] ∧ e.command = some command ∧ e.phase = .working)
    begins ∨ goesOn →
    let freed := fun (u t : State) (items blocks : Nat) =>
      let passes := ∃ y, s.snapshot epoch = some y ∧ y.due = true ∧ s.scu.protectedSet.getLsbD y.group = false ∧ y.undrained = 0 ∧
        ∀ j d, j ≠ x → s.rcu.contexts[j]? = some d → d.epoch = some epoch → d.state = .free
      t.rcu = { contexts := s.rcu.contexts.set x ⟨.free, none, none, false, none, [], none⟩, work := none } ∧
      ∃ cqp : Cqp,
        (¬ passes → t.scu = s.scu ∧ t.xtu = u.xtu ∧ cqp = s.cqp) ∧
        (passes → t.scu = { s.scu with catalogue := s.scu.catalogue.filter fun y => decide (y.epoch ≠ epoch) } ∧
          ∃ q, sweepSignalled u t.xtu q ∧ cqp = { q with causes := s.cqp.causes ||| Cause.catalogueChanged.bit }) ∧
        (kind ≠ .expiry → t.cqp = (State.done { s with cqp := cqp } e
          [.fixed 4 items, .fixed 4 blocks, .fixed 1 (if c.state = .limited then 3 else 2)]).cqp) ∧
        (kind = .expiry → t.cqp = { cqp with causes := cqp.causes ||| Cause.restoreExpired.bit })
    let frame := fun t : State =>
      t = { s with cqp := t.cqp, qsu := t.qsu, xtu := t.xtu, scu := t.scu, rcu := t.rcu, uvu := t.uvu, cju := t.cju }
    (∀ budget, c.items = [] → ∃ t, exec (row budget) s = .next t ∧ freed s t k b ∧
      t.qsu = s.qsu ∧ t.uvu = s.uvu ∧ t.cju = s.cju ∧ frame t) ∧
    (∀ h rest r budget, c.items = h :: rest → s.extent h = some r → 1 ≤ budget → rest = [] ∨ budget = 1 →
      let o := s.opened r.owner
      let epochNow := s.scu.current
      let selected := (r.volume * 16 + o.cls) &&& s.config.selectorMask = s.config.selectorKey &&& s.config.selectorMask
      let live : ExtentRec := { r with
        state := .live, birth := some epochNow, copy := some (if selected then .awaiting else .exempt), context := none }
      let left : OwnerRec := { o with reserved := o.reserved - r.length }
      let kept : OwnerRec := { left with live := left.live + r.length }
      let extents := if kind = .commit then tableInsert h live s.xtu.extents else tableErase h s.xtu.extents
      let u : State := { s with xtu := { s.xtu with extents := extents } }
      ∃ t, exec (row budget) s = .next t ∧ frame t ∧
        (kind = .commit →
          t.cju = { s.cju with openGen := if selected then s.cju.openGen ++ [⟨h, r.length, epochNow⟩] else s.cju.openGen } ∧
          accessedTo s t r.owner { kept with grace := s.graceAfter kept }) ∧
        (kind ≠ .commit → t.cju = s.cju ∧ accessedTo s t r.owner { left with grace := s.graceAfter left }) ∧
        (rest = [] → freed u t (k + 1) (b + r.length)) ∧
        (rest ≠ [] →
          t.rcu = ⟨s.rcu.contexts.set x { c with
              items := rest, idle := if s.rcu.work = none ∧ kind ≠ .expiry then some 0 else c.idle },
            some ⟨kind, x, k + 1, b + r.length⟩⟩ ∧
          t.xtu = u.xtu ∧ t.scu = s.scu ∧
          t.cqp = if kind = .expiry then s.cqp else (s.withPhaseB e .working).cqp)) ∧
    ∀ m n t, exec (row m) s = .next t → t.rcu.work ≠ none → exec (row (m + n)) s = exec (row n) t

/-! ### The Peer Segment and the usage view -/

/-- A beacon tick, under whichever of its three names it comes (BEACON_TICK, PEER_SILENCE at a peer whose count reaches the limit,
ENTER_ACTIVE at the third tick of LISTENING; that these two are no events apart from the tick is the model's reading, assumption
10). Every PRESENT peer counts the tick and falls SILENT at the silence limit (R107), the third tick in LISTENING enters ACTIVE
and starts the walker's counter (R100, R192), in ACTIVE a BEACON with the own demand is placed, which keeps the attempt count of
one that waits, is noted as a replacement where that one is on the wire, and makes an IDLE transmitter enter DEFER (R94, R95), and
the own demand and share are computed (R163, R164), from the peers as the counts leave them or, where the tick takes the share
first, as they were. A tick that builds no BEACON and forms no demand from the journal meets no table memory, the model's reading
(assumption 53). The order of the other parts within the tick is the model's choice (assumption 8). The steps of the fair-share
fill: a demand of at most the fair share is given whole; the first above it ends the fill, each station left having the fair share
and the lowest-numbered one block more, as many as the remainder. -/
def Obligations.BeaconTickCounts : Prop :=
  (∀ (i : Instr) (tick : BeaconTick) (s : State) (timer : Nat), s.operates = true →
    s.psi.beaconTimer = some timer → s.config.beaconInterval * Config.second ≤ timer →
    let third := s.stc.state = .listening ∧ 2 ≤ s.psi.listeningTicks
    tick.ecc ≠ .uncorrectable ∨ s.stc.state ≠ .active ∧ ¬ third ∧
      (s.cju.window ≠ .opened ∨ s.stc.state = .mute ∨ s.odu.linkUp = false) →
    let counted := s.psi.peers.map fun x =>
      if x.state ≠ .present then x
      else if x.silence + 1 < s.config.silenceLimit then { x with silence := x.silence + 1 }
      else { x with state := .silent, silence := s.config.silenceLimit, forgetTimer := 0 }
    (i = .beaconTick tick ∨
      (∃ p, i = .peerSilence p tick ∧ p ≠ s.stc.stationNumber ∧ (s.peer p).state = .present ∧
        s.config.silenceLimit ≤ (s.peer p).silence + 1) ∨
      i = .enterActive tick ∧ third) →
    let ticked : Psi := { s.psi with
      beaconTimer := some 0
      peers := counted
      listeningTicks := if s.stc.state = .listening then s.psi.listeningTicks + 1 else s.psi.listeningTicks }
    ∃ t, exec i s = .next t ∧
      (third → t.stc = { s.stc with state := .active } ∧ t.uvu = { s.uvu with walkerTimer := some 0 }) ∧
      (¬ third → t.stc = s.stc ∧ t.uvu = s.uvu) ∧
      (t.stc.state = .active → t.psi = { ticked with
        beacon := some ⟨.beacon ⟨decide (s.cju.window = .opened), s.uvu.walkCycle, s.scu.current, t.odu.ownDemand⟩,
          (s.psi.beacon.map Holding.attempts).getD 0⟩
        beaconReplaced := s.psi.beaconReplaced ||
          (s.psi.beacon.isSome && decide (s.psi.tx = .sending) && decide (s.psi.attempt.map Attempt.slot = some .beacon))
        tx := if s.psi.tx = .idle then .deferring else s.psi.tx }) ∧
      (t.stc.state ≠ .active → t.psi = ticked) ∧
      shareComputed { s with psi := { s.psi with peers := if tick.shareFirst = true then s.psi.peers else counted } } t.odu ∧
      t.odu.ownShare ≤ s.config.egressCap ∧ t.odu.ownShare ≤ t.odu.ownDemand ∧
      t = { s with stc := t.stc, psi := t.psi, uvu := t.uvu, odu := { s.odu with
        ownDemand := t.odu.ownDemand, ownShare := t.odu.ownShare, tokens := t.odu.tokens } }) ∧
  ∀ (cap : Nat) (d : Nat × Nat) (rest : List (Nat × Nat)),
    let fair := cap / (rest.length + 1)
    (d.2 ≤ fair → fairFill cap (d :: rest) = d :: fairFill (cap - d.2) rest) ∧
    (fair < d.2 → (fairFill cap (d :: rest)).length = rest.length + 1 ∧
      ∀ (i : Nat) (x : Nat × Nat), (d :: rest)[i]? = some x → ∃ n, (fairFill cap (d :: rest))[i]? = some (x.1, n) ∧
        (((d :: rest).filter fun y => decide (y.1 < x.1)).length < cap % (rest.length + 1) → n = fair + 1) ∧
        (cap % (rest.length + 1) ≤ ((d :: rest).filter fun y => decide (y.1 < x.1)).length → n = fair))

/-- A peer whose forget timer has reached the forget limit becomes ABSENT with no field, and an ALL purge of it is asked for,
which waits where a walk runs (R108, R118). Where none runs, the waiting request of the lowest-numbered station that has one is
taken, its ALL request before its STALE one (R118). A visit of a purge walk, in one access: an ALL walk removes the station's
entry, a STALE walk one whose incarnation is neither the target nor the one now stored; P falls by the value, the pool entry is
freed and the view is no longer marked incomplete (R117, R119); the record is otherwise as the opening steps leave it, with grace
re-evaluated outside REBUILD (R7, R19). The walk goes on with the next owner; the visit to owner 65,535 ends it, and the next
waiting request starts at once. -/
def Obligations.ForgottenPeerIsPurged : Prop :=
  (∀ (p : Nat) (s : State), s.operates = true → p ≠ s.stc.stationNumber → p < 16 → s.config.forgetLimit ≠ 0 →
    (∃ x, s.psi.peers[p]? = some x ∧ x.state = .silent ∧ s.config.forgetLimit * 60 * Config.second ≤ x.forgetTimer) →
    ∃ (t : State) (asked : List Nat), exec (.peerForget p) s = .next t ∧
      t.psi = { s.psi with peers := s.psi.peers.set p ⟨.absent, none, none, 0, 0, none, none, false, none⟩ } ∧
      (∀ q, q ∈ asked ↔ q = p ∨ q ∈ s.uvu.allRequests) ∧
      (s.uvu.walk ≠ none → t.uvu = { s.uvu with allRequests := asked }) ∧
      (s.uvu.walk = none → walkTaken { s.uvu with allRequests := asked } t.uvu) ∧
      t = { s with psi := t.psi, uvu := t.uvu }) ∧
  ∀ (ecc : Ecc) (s : State) (w : PurgeWalk), s.uvu.walk = some w → s.stc.state.receives = true → ecc ≠ .uncorrectable →
    let r := s.opened w.position
    let had := r.contributions.find? fun c => decide (c.station = w.station)
    let goes := ∃ c, had = some c ∧ (w.mode = .all ∨
      ∃ target, w.mode = .stale target ∧ c.incarnation ≠ target ∧ some c.incarnation ≠ (s.peer w.station).incarnation)
    let closed := fun y : OwnerRec => if s.operates = true then { y with grace := s.graceAfter y } else y
    let visited := fun (t : State) (walk : Option PurgeWalk) =>
      { s.uvu with poolInUse := t.uvu.poolInUse, viewIncomplete := t.uvu.viewIncomplete, walk := walk }
    ∃ t, exec (.purgeVisit ecc) s = .next t ∧
      (∀ p, p ≠ w.position → t.owner p = s.owner p) ∧
      (goes → (∀ c, had = some c → t.owner w.position = closed { r with
          contributions := r.contributions.filter fun c => decide (c.station ≠ w.station), peerSum := r.peerSum - c.value }) ∧
        t.uvu.poolInUse = s.uvu.poolInUse - 1 ∧ t.uvu.viewIncomplete = false) ∧
      (¬ goes → t.owner w.position = closed r ∧
        t.uvu.poolInUse = s.uvu.poolInUse ∧ t.uvu.viewIncomplete = s.uvu.viewIncomplete) ∧
      (w.position + 1 < 65536 → t.uvu = visited t (some { w with position := w.position + 1 })) ∧
      (65536 ≤ w.position + 1 → walkTaken (visited t none) t.uvu) ∧
      t = { s with qsu := { s.qsu with owners := t.qsu.owners }, uvu := t.uvu }

/-- An attempt starts in ACTIVE, in DEFER, on a medium idle for the whole gap: the SNAPCALL, else the BEACON, else the USAGE is
sent under the next sequence number, its attempt count rising (R93, R95, R96). A successful send empties its slot, unless a
BEACON's payload was replaced during the attempt: that stays with attempt count 0; the transmitter enters DEFER if a slot is
occupied and IDLE if none is (R99). The end of a backoff delay leaves BACKOFF in the same way (R95). That the gap is counted in
cycles from the end of the last transmission heard or sent, and that the bulletin sent is kept for the echo mark until the next
cycle, are the model's choices (assumptions 29 and 22). -/
def Obligations.AttemptsStartAndEnd : Prop :=
  (∀ (s : State) (k : SlotKind) (h : Holding), s.stc.state = .active → s.psi.tx = .deferring → s.psi.mediumBusy = false →
    240 ≤ s.psi.gapTimer →
    (k = .snapcall ∧ s.psi.snapcall = some h ∨ k = .beacon ∧ s.psi.snapcall = none ∧ s.psi.beacon = some h ∨
      k = .usage ∧ s.psi.snapcall = none ∧ s.psi.beacon = none ∧ s.psi.usage = some h) →
    let counted := fun (y : SlotKind) (x : Option Holding) => if y = k then some { h with attempts := h.attempts + 1 } else x
    let n := (s.psi.sequence + 1) % 65536
    exec .attemptStart s = .next { s with psi := { s.psi with
      snapcall := counted .snapcall s.psi.snapcall
      beacon := counted .beacon s.psi.beacon
      usage := counted .usage s.psi.usage
      sequence := n
      tx := .sending
      attempt := some ⟨k, ⟨s.stc.stationNumber, s.psi.incarnation.getD 0, n, h.payload⟩⟩
      beaconReplaced := false } }) ∧
  (∀ (s : State) (a : Attempt), s.psi.tx = .sending → s.psi.attempt = some a →
    ∃ t, exec .sendSuccess s = .next t ∧
      t.psi.snapcall = (if a.slot = .snapcall then none else s.psi.snapcall) ∧
      t.psi.usage = (if a.slot = .usage then none else s.psi.usage) ∧
      (a.slot ≠ .beacon → t.psi.beacon = s.psi.beacon) ∧
      (a.slot = .beacon → s.psi.beaconReplaced = false → t.psi.beacon = none) ∧
      (∀ h, a.slot = .beacon → s.psi.beaconReplaced = true → s.psi.beacon = some h →
        t.psi.beacon = some { h with attempts := 0 }) ∧
      t = { s with psi := { s.psi with
        snapcall := t.psi.snapcall, beacon := t.psi.beacon, usage := t.psi.usage
        tx := if t.psi.snapcall = none ∧ t.psi.beacon = none ∧ t.psi.usage = none then .idle else .deferring
        attempt := none, beaconReplaced := false, justSent := some a.bulletin, gapTimer := 0 } }) ∧
  ∀ s : State, s.psi.tx = .backoff → s.psi.backoffDelay * 1280 ≤ s.psi.backoffTimer →
    exec .backoffEnd s = .next { s with psi := { s.psi with
      tx := if s.psi.snapcall = none ∧ s.psi.beacon = none ∧ s.psi.usage = none then .idle else .deferring
      backoffDelay := 0, backoffTimer := 0 } }

/-- A collision stops the attempt and enters BACKOFF for a whole number of slot times, at most 2^min(k, 6) − 1 after the k-th
attempt, drawn from the generator (R97), whose series is not stated and stands as a free value (assumption 16); a BEACON or USAGE
whose eighth attempt it was is dropped and counted, and a SNAPCALL is not (R98). -/
def Obligations.CollisionBacksOffOrDrops : Prop :=
  ∀ (s : State) (a : Attempt) (h : Holding), s.psi.tx = .sending → s.psi.attempt = some a →
    (a.slot = .snapcall ∧ s.psi.snapcall = some h ∨ a.slot = .beacon ∧ s.psi.beacon = some h ∨
      a.slot = .usage ∧ s.psi.usage = some h) →
    let dropped := a.slot ≠ .snapcall ∧ 8 ≤ h.attempts
    ∃ t, exec .collision s = .next t ∧
      t.psi.backoffDelay ≤ 2 ^ min h.attempts 6 - 1 ∧
      t.psi.snapcall = s.psi.snapcall ∧
      t.psi.beacon = (if a.slot = .beacon ∧ 8 ≤ h.attempts then none else s.psi.beacon) ∧
      t.psi.usage = (if a.slot = .usage ∧ 8 ≤ h.attempts then none else s.psi.usage) ∧
      (dropped → t.psi.dropCount = if s.psi.dropCount < 4294967295 then s.psi.dropCount + 1 else 4294967295) ∧
      (¬ dropped → t.psi.dropCount = s.psi.dropCount) ∧
      t = { s with psi := { s.psi with
        beacon := t.psi.beacon, usage := t.psi.usage, dropCount := t.psi.dropCount
        tx := .backoff, attempt := none, beaconReplaced := false, gapTimer := 0
        backoffDelay := t.psi.backoffDelay, backoffTimer := 0
        generator := { s.psi.generator with draws := s.psi.generator.draws + 1 } } }

/-- The medium and the receive FIFO (R95, R101). In the states that hear, a transmission of 40 bytes or more joins the FIFO with
its echo mark, or, with 8 bulletins in it, is dropped and counted; a fragment takes no place. Either leaves the medium idle and
starts the gap again; a transmission that begins holds the medium. The mark is set when the sender, incarnation and sequence are
those of the own attempt still on the wire or ended within this cycle, which is the model's choice (assumption 22), as is that the
medium is followed in the states that do not hear (assumption 29). The bytes of a bulletin and its CRC-16 are those of R200. -/
def Obligations.ReceiverTakesBulletins : Prop :=
  (∀ b : Bulletin, ∃ payload : List Byte, payload.length = 32 ∧
    (let head := [BitVec.ofNat 8 (match b.payload with | .beacon _ => 1 | .usage .. => 2 | .snapcall .. => 3),
      BitVec.ofNat 8 b.sender] ++ leBytes 2 b.incarnation ++ leBytes 2 b.sequence ++ payload
    b.bytes = head ++ leBytes 2 (crc16 head).toNat) ∧
    payload = match b.payload with
      | .beacon c => [5, if c.night = true then 1 else 0] ++ leBytes 2 c.cycle ++ leBytes 4 c.epoch ++ leBytes 4 c.demand ++
          List.replicate 20 0
      | .usage owner value => leBytes 2 owner ++ leBytes 4 value ++ List.replicate 26 0
      | .snapcall epoch kind => leBytes 4 epoch ++ [match kind with | .admin => 1 | .night => 2] ++ List.replicate 27 0) ∧
  (crc16 [] = 0xFFFF ∧ ∀ (l : List Byte) (b : Byte),
    let shift := fun r : BitVec 16 => if r.getLsbD 15 = true then (r <<< 1) ^^^ 0x1021 else r <<< 1
    crc16 (l ++ [b]) = shift (shift (shift (shift (shift (shift (shift (shift (crc16 l ^^^ (b.setWidth 16 <<< 8)))))))))) ∧
  (∀ data : List Byte, bulletinIdentity data = (fieldAt data 1 1, fieldAt data 2 2, fieldAt data 4 2)) ∧
  (∀ (data : List Byte) (s : State), 40 ≤ data.length →
    let idle := { s.psi with mediumBusy := false, gapTimer := 0 }
    (s.stc.state.receives = true → s.psi.fifo.length < 8 → ∃ echo, exec (.bulletinArrival data) s = .next { s with psi := { idle with
        fifo := s.psi.fifo ++ [⟨data.take 40, decide (40 < data.length), echo⟩] } } ∧
      (echo = true ↔ ∃ b, (s.psi.tx = .sending ∧ s.psi.attempt.map Attempt.bulletin = some b ∨ s.psi.justSent = some b) ∧
        bulletinIdentity data = (b.sender, b.incarnation, b.sequence))) ∧
    (s.stc.state.receives = true → 8 ≤ s.psi.fifo.length → exec (.bulletinArrival data) s = .next { s with psi := { idle with
      overflowCount := if s.psi.overflowCount < 4294967295 then s.psi.overflowCount + 1 else 4294967295 } }) ∧
    (s.stc.state.receives = false → exec (.bulletinArrival data) s = .next { s with psi := idle }) ∧
    exec .fragment s = .next { s with psi := idle }) ∧
  ∀ s : State, exec .mediumBusy s = .next { s with psi := { s.psi with mediumBusy := true, gapTimer := 0 } }

/-- The acceptance table of R104: a first contact or an incarnation change is accepted as such, a PRESENT entry's bulletin when
its sequence is ahead of the last by 1 to 32,767, a SILENT entry's when its sequence differs from the last, and any other is
stale. -/
def Obligations.AcceptanceFollowsTheTable : Prop :=
  ∀ (x : Peer) (incarnation last sequence : Nat), last < 65536 → sequence < 65536 →
    let ahead := (sequence + 65536 - last) % 65536
    (x.incarnation = none → acceptance x incarnation sequence = .fresh) ∧
    (∀ i, x.incarnation = some i → i ≠ incarnation → acceptance x incarnation sequence = .fresh) ∧
    (x.incarnation = some incarnation → x.lastSequence = some last →
      (x.state = .present → acceptance x incarnation sequence = if 1 ≤ ahead ∧ ahead ≤ 32767 then .accepted else .stale) ∧
      (x.state = .silent → acceptance x incarnation sequence = if sequence = last then .stale else .accepted))

/-- The bulletin at the head of the FIFO. A damaged one is discarded and counted: it ran on past its 40 bytes, its CRC-16 differs,
its sender is above 15, or its kind or call kind names none; any other is the bulletin of the fields its bytes hold at the offsets
of R200, and the bytes a station sends give back the bulletin sent (R102, R200). One under the own number is discarded, an echo
without effect and any other entering MUTE from LISTENING and ACTIVE, where the slots and the frames outstanding stay, the own
demand and share become 0 and the tokens are cut to the bucket of 256 blocks (R102, R103, R162, R165); a stale one is discarded
without effect; an accepted one makes its sender PRESENT with its incarnation and sequence, and at a first contact or an
incarnation change takes the earlier contents and reference away and makes the incarnation the purge target (R105, R110). A USAGE
is handed to UVU. A BEACON's contents are kept and the catch-up test taken: the first counter becomes the reference, and one ahead
of it by 2 to 32,767 sets the flag and hands the purge target on as a STALE request, which waits where a walk runs and else joins
the waiting requests, of which one starts (R109, R118). A SNAPCALL raises highest heard; at or below K it does no more, and above
K it makes a PEER-CALL record where the tables are in use and the Catalogue has room, else is missed (R58, R59, R61). -/
def Obligations.FilterDisposesOfTheHead : Prop :=
  (∀ l : List Byte,
    let f := fieldAt l
    let matches_ := (crc16 (l.take 38)).toNat = f 38 2
    (bulletinOf l = none ↔ ¬ matches_ ∨ 15 < f 1 1 ∨ f 0 1 ∉ [1, 2, 3] ∨ f 0 1 = 3 ∧ f 10 1 ∉ [1, 2]) ∧
    ∀ b, bulletinOf l = some b ↔ matches_ ∧ f 1 1 ≤ 15 ∧ b.sender = f 1 1 ∧ b.incarnation = f 2 2 ∧ b.sequence = f 4 2 ∧
      (f 0 1 = 1 ∧ b.payload = .beacon ⟨(f 7 1).testBit 0, f 8 2, f 10 4, f 14 4⟩ ∨
        f 0 1 = 2 ∧ b.payload = .usage (f 6 2) (f 8 4) ∨
        f 0 1 = 3 ∧ f 10 1 = 1 ∧ b.payload = .snapcall (f 6 4) .admin ∨
        f 0 1 = 3 ∧ f 10 1 = 2 ∧ b.payload = .snapcall (f 6 4) .night)) ∧
  (∀ b : Bulletin, b.sender < 16 → b.incarnation < 65536 → b.sequence < 65536 →
    (match b.payload with
      | .beacon c => c.cycle < 65536 ∧ c.epoch < 4294967296 ∧ c.demand < 4294967296
      | .usage owner value => owner < 65536 ∧ value < 4294967296
      | .snapcall epoch _ => epoch < 4294967296) →
    bulletinOf b.bytes = some b) ∧
  ∀ (ecc : Ecc) (s : State) (x : Received) (rest : List Received), s.stc.state.receives = true → s.psi.handed = none →
    s.psi.fifo = x :: rest → ecc ≠ .uncorrectable →
    let i := Instr.bulletinFilter ecc
    let taken := { s.psi with fifo := rest }
    (x.oversize = true ∨ bulletinOf x.data = none → exec i s = .next { s with psi := { taken with
      errorCount := if s.psi.errorCount < 4294967295 then s.psi.errorCount + 1 else 4294967295 } }) ∧
    ∀ b, x.oversize = false → bulletinOf x.data = some b →
      (b.sender = s.stc.stationNumber → x.echo = true ∨ s.stc.state = .mute ∨ s.stc.state = .rebuild →
        exec i s = .next { s with psi := taken }) ∧
      (b.sender = s.stc.stationNumber → x.echo = false → s.stc.state = .listening ∨ s.stc.state = .active →
        ∃ t, exec i s = .next t ∧ t.stc = { s.stc with state := .mute } ∧
          t.psi = { taken with
            snapcall := none, beacon := none, usage := none, tx := .idle, attempt := none, beaconReplaced := false } ∧
          t.uvu = { s.uvu with walkerTimer := none } ∧
          t.odu = { s.odu with ownDemand := 0, ownShare := 0, tokens := min s.odu.tokens 256000 } ∧
          t.cqp = { s.cqp with causes := s.cqp.causes ||| Cause.duplicateStation.bit } ∧
          t = { s with stc := t.stc, psi := t.psi, uvu := t.uvu, cqp := t.cqp, odu := t.odu }) ∧
      (b.sender ≠ s.stc.stationNumber → acceptance (s.peer b.sender) b.incarnation b.sequence = .stale →
        exec i s = .next { s with psi := taken }) ∧
      (b.sender ≠ s.stc.stationNumber → acceptance (s.peer b.sender) b.incarnation b.sequence ≠ .stale → b.sender < s.psi.peers.length →
        let fresh := acceptance (s.peer b.sender) b.incarnation b.sequence = .fresh
        let old := s.peer b.sender
        let entry : Peer :=
          { state := .present, incarnation := some b.incarnation, lastSequence := some b.sequence, silence := 0, forgetTimer := 0
            beacon := if fresh then none else old.beacon
            reference := if fresh then none else old.reference
            caughtUp := if fresh then false else old.caughtUp
            purgeTarget := if fresh then some b.incarnation else old.purgeTarget }
        let with_ := fun (y : Peer) => { taken with peers := s.psi.peers.set b.sender y }
        (∀ o v, b.payload = .usage o v → exec i s = .next { s with psi := { with_ entry with handed := some ⟨b.sender, o, v⟩ } }) ∧
        (∀ c, b.payload = .beacon c →
          let kept : Peer := { entry with beacon := some c }
          (entry.caughtUp = true → exec i s = .next { s with psi := with_ kept }) ∧
          (entry.caughtUp = false → entry.reference = none →
            exec i s = .next { s with psi := with_ { kept with reference := some c.cycle } }) ∧
          (∀ r, entry.caughtUp = false → entry.reference = some r → r < 65536 →
            let ahead := (c.cycle + 65536 - r) % 65536
            let reached := { s with psi := with_ { kept with caughtUp := true, purgeTarget := none } }
            (ahead < 2 ∨ 32767 < ahead → exec i s = .next { s with psi := with_ kept }) ∧
            (2 ≤ ahead → ahead ≤ 32767 →
              (entry.purgeTarget = none → exec i s = .next reached) ∧
              ∀ target, entry.purgeTarget = some target →
                (s.uvu.walk ≠ none → exec i s = .next { reached with uvu := { s.uvu with
                  staleRequests := tableInsert b.sender target s.uvu.staleRequests } }) ∧
                (s.uvu.walk = none → ∃ uvu, exec i s = .next { reached with uvu := uvu } ∧
                  walkTaken { s.uvu with staleRequests := tableInsert b.sender target s.uvu.staleRequests } uvu)))) ∧
        (∀ n k, b.payload = .snapcall n k →
          let heard := { s with psi := with_ entry, scu := { s.scu with highestHeard := max s.scu.highestHeard n } }
          let raised := { s.cqp with causes := s.cqp.causes ||| Cause.catalogueChanged.bit }
          let clock := s.stc.clock
          (n ≤ s.scu.current → exec i s = .next heard) ∧
          (s.scu.current < n → s.operates = true → s.scu.catalogue.length < 64 → exec i s = .next { heard with
            cqp := raised
            scu := { heard.scu with
              current := n
              catalogue := s.scu.catalogue ++ [⟨n, clock.day, clock.second, .peerCall b.sender k, s.config.peerRetention,
                clock.day + s.config.peerRetention, s.config.peerGroup, 0, false⟩] } }) ∧
          (s.scu.current < n → s.operates = false ∨ 64 ≤ s.scu.catalogue.length → exec i s = .next { heard with
            cqp := raised, scu := { heard.scu with lastMissed := some n } })))

/-- A SNAPCALL that is accepted with an epoch above K, from a peer number below 16: where the tables are in use and the Catalogue
has room it makes a PEER-CALL record at that epoch, which becomes K; else the call is missed; either raises CATALOGUE-CHANGED
(R59, R61). USAGE_APPLY takes the handed value into the owner record by the table of R116, in one access: the incarnation recorded
is the one the Station Table stores, and where the sender's entry was forgotten before, so that it stores none, a free value (the
model's choice, assumption 44); the other stations' contributions stay, an ascending list stays ascending, and the record is
otherwise as the opening steps leave it, with grace re-evaluated outside REBUILD (R7, R19). -/
def Obligations.PeersActOnTheTables : Prop :=
  (∀ (s : State) (p epoch : Nat) (kind : CallKind), s.scu.current < epoch →
    let t := s.hearCall p epoch kind
    let c := s.stc.clock
    t.cqp = { s.cqp with causes := s.cqp.causes ||| Cause.catalogueChanged.bit } ∧
    t = { s with cqp := t.cqp, scu := t.scu } ∧
    (s.operates = true → s.scu.catalogue.length < 64 → t.scu = { s.scu with
      current := epoch
      catalogue := s.scu.catalogue ++ [⟨epoch, c.day, c.second, .peerCall p kind, s.config.peerRetention,
        c.day + s.config.peerRetention, s.config.peerGroup, 0, false⟩] }) ∧
    (s.operates = false ∨ 64 ≤ s.scu.catalogue.length → t.scu = { s.scu with lastMissed := some epoch })) ∧
  ∀ (ecc : Ecc) (s : State) (u : HandedUsage), s.psi.handed = some u → s.stc.state.receives = true → ecc ≠ .uncorrectable →
    let r := s.opened u.owner
    let had := r.contributions.find? fun c => decide (c.station = u.peer)
    let old := (had.map Contribution.value).getD 0
    let i := (s.peer u.peer).incarnation.getD (Config.forgottenIncarnation u.peer u.owner u.value % 65536)
    let room := had ≠ none ∨ s.uvu.poolInUse < 524288
    let closed := fun y : OwnerRec => if s.operates = true then { y with grace := s.graceAfter y } else y
    ∃ t, exec (.usageApply ecc) s = .next t ∧ t.psi = { s.psi with handed := none } ∧
      (∀ p, p ≠ u.owner → t.owner p = s.owner p) ∧
      (u.value ≠ 0 → room → ∃ l : List Contribution,
        t.owner u.owner = closed { r with contributions := l, peerSum := r.peerSum - old + u.value } ∧
        (∀ q, l.find? (fun c => decide (c.station = q)) =
          if q = u.peer then some ⟨u.peer, u.value, i⟩ else r.contributions.find? fun c => decide (c.station = q)) ∧
        (r.contributions.Pairwise (fun a b => a.station < b.station) → l.Pairwise fun a b => a.station < b.station)) ∧
      (u.value = 0 → t.owner u.owner = closed { r with
        contributions := r.contributions.filter fun c => decide (c.station ≠ u.peer), peerSum := r.peerSum - old }) ∧
      (¬ room → u.value ≠ 0 → t.owner u.owner = closed r) ∧
      t.uvu = { s.uvu with
        poolInUse := if had = none then (if u.value ≠ 0 ∧ room then s.uvu.poolInUse + 1 else s.uvu.poolInUse)
          else if u.value = 0 then s.uvu.poolInUse - 1 else s.uvu.poolInUse
        viewIncomplete := s.uvu.viewIncomplete || decide (¬ room ∧ u.value ≠ 0) } ∧
      t = { s with psi := t.psi, qsu := t.qsu, uvu := t.uvu }

/-- The walker's interval in ACTIVE: with the USAGE slot occupied only the counter reloads; else one pick is made (R123). With
fewer than three dirty picks since the last sweep pick, the Dirty List's head is popped and announced: its C is placed as a USAGE
and becomes its last-announced value, and its dirty-member flag clears in the same access (R124, R126). Else the sweep announces
the first active owner from the pointer on, or none where all 65,536 are inactive, and the walk cycle counter rises as the pointer
passes from 65,535 to 0 (R125). -/
def Obligations.WalkerPicksAndAnnounces : Prop :=
  ∀ (ecc : Ecc) (s : State) (timer : Nat), s.stc.state = .active → s.uvu.walkerTimer = some timer →
    s.config.walkerInterval * 25000 ≤ timer → ecc ≠ .uncorrectable →
    let announced := fun (t : State) (o : Nat) (dirty : Bool) =>
      t.owner o = s.closing { s.opened o with lastAnnounced := s.chargeable (s.opened o), dirty := dirty } ∧
      (∀ p, p ≠ o → t.owner p = s.owner p) ∧
      t.psi = { s.psi with
        usage := some ⟨.usage o (s.chargeable (s.opened o)), 0⟩, tx := if s.psi.tx = .idle then .deferring else s.psi.tx } ∧
      t = { s with qsu := { s.qsu with owners := t.qsu.owners }, uvu := t.uvu, psi := t.psi }
    (s.psi.usage.isSome = true → exec (.walkerExpiry ecc) s = .next { s with uvu := { s.uvu with walkerTimer := some 0 } }) ∧
    (∀ o rest, s.psi.usage = none → s.uvu.dirtyList = o :: rest → s.uvu.consecutiveDirty < 3 →
      ∃ t, exec (.walkerExpiry ecc) s = .next t ∧ announced t o false ∧ t.uvu = { s.uvu with
        walkerTimer := some 0
        dirtyList := rest
        overflowed := s.uvu.overflowed && decide (rest ≠ [])
        consecutiveDirty := s.uvu.consecutiveDirty + 1 }) ∧
    (s.psi.usage = none → s.uvu.dirtyList = [] ∨ 3 ≤ s.uvu.consecutiveDirty → s.uvu.sweepPointer < 65536 →
      let active := fun o : Nat => 0 < s.chargeable (s.owner o) ∨ 0 < (s.owner o).lastAnnounced
      let seen := fun j : Nat => (s.uvu.sweepPointer + j) % 65536
      (∀ k, k < 65536 → (∀ j, j < k → ¬ active (seen j)) → active (seen k) →
        ∃ t, exec (.walkerExpiry ecc) s = .next t ∧ announced t (seen k) (s.owner (seen k)).dirty ∧ t.uvu = { s.uvu with
          walkerTimer := some 0
          sweepPointer := (seen k + 1) % 65536
          walkCycle := if 65536 ≤ s.uvu.sweepPointer + k + 1 then (s.uvu.walkCycle + 1) % 65536 else s.uvu.walkCycle
          consecutiveDirty := 0 }) ∧
      ((∀ j, j < 65536 → ¬ active (seen j)) → exec (.walkerExpiry ecc) s = .next { s with uvu := { s.uvu with
        walkerTimer := some 0, walkCycle := (s.uvu.walkCycle + 1) % 65536, consecutiveDirty := 0 } }))

/-! ### The night window -/

/-- The window start in CLOSED (R134, R135): the night number rises, passing from 4,294,967,295 to 1, the figures start afresh
with the entries carried over, and the window end is set. Outside ACTIVE the night is SKIPPED; in ACTIVE with a reusable newest
record it opens under that record's epoch; with a call possible, under a new NIGHT-CALL record's, whose SNAPCALL is placed, and
CATALOGUE-CHANGED is raised (R60). Opening freezes the open entries of births below the epoch, oldest first, behind the frozen
ones, and the record's undrained count rises by their number (R136, R69); the own demand and share are computed (R163, R164). In
any other window or station state the moment passes without effect. The guard of R135: the newest record is reused when the guard
is above 0 and it was taken not in the future and at most the guard's minutes ago, days counted at 86,400 seconds. A call is
stated where the Catalogue holds no record above K. -/
def Obligations.WindowStartTakesTheNight : Prop :=
  (∀ (ecc : Ecc) (s : State), s.stc.windowMoment = true → ecc ≠ .uncorrectable →
    let i := Instr.windowStart ecc
    let past := { s.stc with windowMoment := false }
    let begun := { s.cju with
      nightNumber := if s.cju.nightNumber < 4294967295 then s.cju.nightNumber + 1 else 1
      figures := ⟨false, s.cju.frozen.length, 0, 0, 0, 0⟩
      windowLeft := some (s.config.nightLength * 60 * Config.second) }
    (s.operates = false ∨ s.cju.window ≠ .closed → exec i s = .next { s with stc := past }) ∧
    (s.operates = true → s.cju.window = .closed → s.stc.state ≠ .active →
      exec i s = .next { s with stc := past, cju := { begun with
        window := .skipped, figures := { begun.figures with skipped := true } } }) ∧
    (s.stc.state = .active → s.cju.window = .closed →
      let calls := ¬ (s.psi.snapcall.isSome = true ∨ 64 ≤ s.scu.catalogue.length ∨ 4294967295 < s.chosenEpoch)
      (s.reusable = none → ¬ calls → exec i s = .next { s with stc := past, cju := { begun with
        window := .skipped, figures := { begun.figures with skipped := true } } }) ∧
      ∀ n moved kept, s.cju.openGen = moved ++ kept → (∀ x ∈ moved, x.birth < n) → (∀ x, kept.head? = some x → n ≤ x.birth) →
        let opened : Cju := { begun with
          window := .opened, nightly := some n, openGen := kept
          frozen := s.cju.frozen ++ moved.map (fun x => ⟨x.handle, x.length, x.birth, n, .waiting, 0, 0, none⟩)
          figures := { begun.figures with frozenTonight := moved.length } }
        let shared := fun o : Odu => shareComputed { s with cju := opened } o ∧
          o = { s.odu with ownDemand := o.ownDemand, ownShare := o.ownShare, tokens := o.tokens }
        (∀ r, s.reusable = some r → r.epoch = n → ∃ o, shared o ∧ exec i s = .next { s with
          stc := past
          cju := opened
          odu := o
          scu := { s.scu with catalogue := s.scu.catalogue.map fun y =>
            if y.epoch = n then { y with undrained := y.undrained + moved.length } else y } }) ∧
        (s.reusable = none → calls → s.chosenEpoch = n → (∀ y ∈ s.scu.catalogue, y.epoch ≤ s.scu.current) →
          ∃ o, shared o ∧ exec i s = .next { s with
            stc := past
            cju := opened
            odu := o
            scu := { s.scu with
              current := n
              catalogue := s.scu.catalogue ++ [⟨n, s.stc.clock.day, s.stc.clock.second, .nightCall, s.config.nightRetention,
                s.stc.clock.day + s.config.nightRetention, s.config.nightGroup, moved.length, false⟩] }
            psi := { s.psi with
              snapcall := some ⟨.snapcall n .night, 0⟩, tx := if s.psi.tx = .idle then .deferring else s.psi.tx }
            cqp := { s.cqp with causes := s.cqp.causes ||| Cause.catalogueChanged.bit } }))) ∧
  ∀ (s : State) (r : SnapRec), s.scu.catalogue.getLast? = some r →
    let now := s.stc.clock.day * 86400 + s.stc.clock.second
    let taken := r.takenDay * 86400 + r.takenSecond
    (s.reusable = some r ↔ s.config.callGuard ≠ 0 ∧ taken ≤ now ∧ now - taken ≤ 60 * s.config.callGuard) ∧
    (s.reusable = none ↔ ¬ (s.config.callGuard ≠ 0 ∧ taken ≤ now ∧ now - taken ≤ 60 * s.config.callGuard))

/-- The window end (R141, R162). A SKIPPED night is settled at once. In OPEN the share and the tokens go to 0, staging gives up
its turn at the notice queue, every slot in STAGING or READY is freed and its entry reverts in place, every place in BUSY-WAIT or
RESEND-DUE is released, its slot freed and its entry reverted in place, and places awaiting a reply stay; with none left and no
completion waiting the night is settled. A settled night's report is built from the figures and the journal as they then stand,
and waits for NIGHT_REPORT also where the queue has room, the model's choice (assumption 40), as is that the own demand falls to 0
with the share at once (assumption 46). No two places hold one slot. NIGHT_REPORT hands a built report over once the queue has
room: the window becomes CLOSED with no nightly epoch, and NIGHT-END is raised (R142). The window end in OPEN, where no entry
reverts and no report is built, meets no table memory, the model's reading (assumption 53; O55). The hand-over carries an answer
of table memory, the model's choice (assumption 52), and is stated here where that is no uncorrectable error. -/
def Obligations.NightEndsWithItsReport : Prop :=
  (∀ (ecc : Ecc) (s : State), s.cju.windowLeft = some 0 → s.stc.state ≠ .halted → ecc ≠ .uncorrectable → s.cju.report = none →
    let c := s.cju
    let f := c.figures
    let report := fun frozen : List FrozenEntry => (⟨c.nightNumber, f.skipped, c.nightly, f.carriedOver, f.frozenTonight,
      f.extentsCopied, f.blocksCopied, f.failures, frozen.length, (frozen.map FrozenEntry.length).sum, c.openGen.length,
      (c.openGen.map OpenEntry.length).sum⟩ : NightReport)
    let ended := fun frozen : List FrozenEntry => { c with frozen := frozen, window := .settling, windowLeft := none }
    let reported := (s.cqp.waiting.filter fun u => decide (u = .reclaim) && s.xtu.batchWaiting) ++ [.report]
    (c.window = .skipped → s.odu.places = [] → s.odu.completions = [] → exec (.windowEnd ecc) s = .next { s with
      cju := { ended c.frozen with report := some (report c.frozen) }, cqp := { s.cqp with waiting := reported } }) ∧
    (c.window = .opened → (s.odu.places.map Place.slot).Nodup →
      let awaits := fun p : Place => match p.state with
        | .awaiting _ => true
        | _ => false
      let loaded := fun x : StagingSlot => (decide (x.state = .staging) || decide (x.state = .ready)) && x.load.isSome
      let done := (s.odu.places.filter fun p => !awaits p).map Place.slot
      let goes := fun i : Nat => loaded (s.slot i) || done.contains i
      let back := ((s.odu.slots.filter loaded).filterMap StagingSlot.handle?) ++
        (s.odu.places.filter fun p => !awaits p).map Place.handle
      let frozen := c.frozen.map fun y => if y.handle ∈ back then { y with step := .waiting, attempts := 0 } else y
      let settled := s.odu.places.filter awaits = [] ∧ s.odu.completions = []
      ∃ t, exec (.windowEnd ecc) s = .next t ∧
        (settled → t.cju = { ended frozen with report := some (report frozen) } ∧ t.cqp = { s.cqp with waiting := reported }) ∧
        (¬ settled → t.cju = ended frozen ∧
          t.cqp = { s.cqp with waiting := s.cqp.waiting.filter fun u => decide (u ≠ .staging) }) ∧
        t.odu.slots.length = s.odu.slots.length ∧
        (∀ i, i < s.odu.slots.length → t.slot i = if goes i then ⟨.free, none, none, none⟩ else s.slot i) ∧
        t = { s with cju := t.cju, cqp := t.cqp, odu := { s.odu with
          ownDemand := 0, ownShare := 0, tokens := 0
          slots := t.odu.slots
          readyOrder := s.odu.readyOrder.filter fun i => !goes i
          resends := s.odu.resends.filter fun i => !goes i
          places := s.odu.places.filter awaits } }) ∧
    (c.window = .closed ∨ c.window = .settling → exec (.windowEnd ecc) s = .next s)) ∧
  ∀ (ecc : Ecc) (s : State) (r : NightReport), s.cju.report = some r → s.operates = true → ecc ≠ .uncorrectable →
    (s.canHand .report = false → exec (.nightReport ecc) s = .next s) ∧
    (s.canHand .report = true → exec (.nightReport ecc) s = .next { s with
      cju := { s.cju with window := .closed, nightly := none, report := none }
      cqp := { s.cqp with
        notices := s.cqp.notices ++ [.nightReport r]
        waiting := s.cqp.waiting.filter fun u => decide (u ≠ .report)
        causes := s.cqp.causes ||| Cause.nightEnd.bit } })

/-! ### Staging and the Offsite Link -/

/-- The check value of R152: from 0xA5C35A3C, each word in turn is combined by exclusive or into the value rotated left by 5 bits;
a word is four bytes, the lowest offset least significant; STAGED takes length × 1,024 words from the start of the slot's data
area. -/
def Obligations.CheckValueOverTheData : Prop :=
  checkValue [] = 0xA5C35A3C ∧
  (∀ (words : List Word32) (w : Word32), checkValue (words ++ [w]) =
    ((checkValue words <<< 5) ||| (checkValue words >>> 27)) ^^^ w) ∧
  ∀ (s : State) (slot length : Nat),
    (wordsOf (s.slotData slot length)).length = length * 1024 ∧
    ∀ i, i < length * 1024 → ∃ w, (wordsOf (s.slotData slot length))[i]? = some w ∧
      ∀ j, j < 4 → (w >>> (8 * j)).setWidth 8 = memRead s.staging (slot * 1048576 + 4 * i + j)

/-- A take for staging gives the lowest-numbered FREE slot to the WAITING entry nearest the head and hands over a STAGE-REQUEST
(R148). STAGED makes the slot and its entry READY, last in the ready order, with the check value (R149); STAGE-FAILED, and a
deadline of 120 s, free the slot and take the entry by the failure path to the tail as WAITING with one failure counted (R139,
R150, R151). The handles of the frozen entries are taken to be distinct. STAGED and STAGE-FAILED take their tests in order: a slot
above 7 or handle 0 is BAD-FIELD, a slot that is not STAGING is STALE, and another handle than the slot's is BAD-FIELD (R149,
R150). -/
def Obligations.StagingServesAnEntry : Prop :=
  (∀ (ecc : Ecc) (s : State) (before after : List FrozenEntry) (x : FrozenEntry),
    ecc ≠ .uncorrectable → s.cju.frozen = before ++ x :: after → (∀ y ∈ before ++ after, y.handle ≠ x.handle) →
    let failed := { x with
      step := .waiting
      attempts := 0
      nightsFailed := if x.failedNight = some s.cju.nightNumber then x.nightsFailed else min 255 (x.nightsFailed + 1)
      failedNight := some s.cju.nightNumber }
    let freed := fun (i : Nat) => { s with
      cju := { s.cju with
        frozen := before ++ after ++ [failed]
        figures := { s.cju.figures with failures := s.cju.figures.failures + 1 } }
      odu := { s.odu with
        slots := s.odu.slots.set i ⟨.free, none, none, none⟩
        readyOrder := s.odu.readyOrder.filter fun y => decide (y ≠ i)
        resends := s.odu.resends.filter fun y => decide (y ≠ i) } }
    (∀ r i, s.stc.state = .active → s.cju.window = .opened → s.odu.linkUp = true → s.canHand .staging = true →
      s.extent x.handle = some r → x.step = .waiting → (∀ y ∈ before, y.step ≠ .waiting) →
      s.odu.slots.findIdx? (fun y => decide (y.state = .free)) = some i →
      exec (.takeForStaging ecc) s = .next { s with
        odu := { s.odu with slots := s.odu.slots.set i ⟨.staging, some ⟨x.handle, r.volume, x.length⟩, some 0, none⟩ }
        cju := { s.cju with frozen := before ++ { x with step := .staging } :: after }
        cqp := { s.cqp with
          notices := s.cqp.notices ++ [.stageRequest i x.handle r.volume x.length]
          waiting := s.cqp.waiting.filter fun u => decide (u ≠ .staging) } }) ∧
    ∀ i load, s.slot i = ⟨.staging, some load, (s.slot i).timer, (s.slot i).check⟩ → load.handle = x.handle → i < 8 →
      (∀ e, s.offersB e (.staged i x.handle) → x.handle ≠ 0 →
        let check := checkValue (wordsOf (s.slotData i load.length))
        exec (.staged i x.handle ecc) s = .next { s.done e [.fixed 1 i, .fixed 4 x.handle, .fixed 4 check.toNat] with
          odu := { s.odu with
            slots := s.odu.slots.set i ⟨.ready, some load, none, some check⟩
            readyOrder := s.odu.readyOrder ++ [i] }
          cju := { s.cju with frozen := before ++ { x with step := .ready } :: after } }) ∧
      (∀ e, s.offersB e (.stageFailed i x.handle) → x.handle ≠ 0 →
        exec (.stageFailed i x.handle ecc) s = .next ((freed i).done e [])) ∧
      (∀ n, (s.slot i).timer = some n → 120 * 25000000 ≤ n → s.stc.state ≠ .halted →
        exec (.stagingTimeout i ecc) s = .next (freed i))) ∧
  ∀ (i h : Nat) (ecc : Ecc) (s : State) (e : InProgress) (c : Instr),
    (c = .staged i h ecc ∧ s.offersB e (.staged i h) ∨ c = .stageFailed i h ecc ∧ s.offersB e (.stageFailed i h)) →
    (7 < i ∨ h = 0 → exec c s = .next (s.refusedWith e .badField)) ∧
    (i ≤ 7 → h ≠ 0 → (s.slot i).state ≠ .staging → exec c s = .next (s.refusedWith e .stale)) ∧
    (∀ load, i ≤ 7 → h ≠ 0 → (s.slot i).state = .staging → (s.slot i).load = some load → load.handle ≠ h →
      exec c s = .next (s.refusedWith e .badField))

/-- HELLO is sent each second in DOWN and IDLE each second without another frame in UP (R153, R154), with the bytes and the frame
check of R201; that the whole frame goes out in one event, and the next second starts there, is the model's choice (assumption
25), as is that bytes no field of it occupies are 0 (assumption 41). Received bytes whose length and check are those their header
and body give are a READY, an IDLE, an ACK or a NAK by their kind and its body length, with the fields at the offsets of R201, and
any others are a bad frame; that a HELLO or a COPY is one too, and bytes whose length is not 12 more than the body's, is the
model's reading (assumption 30), and it is its choice that the reason of a NAK is one byte and that the bytes no field of a
received frame occupies may hold anything (assumption 41). In DOWN a READY makes the link UP, raising LINK-UP, and with the window
OPEN the own demand and share are computed (R163, R164), else demand, share and tokens stay; that the rise meets table memory only
with the window OPEN and not in MUTE, and a loss only with a place outstanding or a night to settle, is the model's reading
(assumption 53); in UP a READY or an IDLE restarts the silence timer; a bad frame restarts nothing. A loss of signal, or 10 s of
silence, takes the link DOWN, empties the tokens and raises LINK-DOWN; the frames outstanding are lost, their entries returning to
the head of the frozen generation in first-send order as WAITING with their attempts kept, their slots becoming FREE (R140, R155),
and staging gives up its turn. In SETTLING, with no completion waiting, that settles the night (R141); that its report then waits
for NIGHT_REPORT, the window in SETTLING, also where the notice queue has room, is the model's choice (assumption 40), and so is
that the own demand falls to 0 with the share (assumption 46). -/
def Obligations.LinkRisesAndFalls : Prop :=
  (∃ register : List Byte → Word32, register [] = 0xFFFFFFFF ∧
    (∀ (l : List Byte) (b : Byte),
      let shift := fun r : Word32 => if r.getLsbD 31 = true then (r <<< 1) ^^^ 0x04C11DB7 else r <<< 1
      register (l ++ [b]) =
        shift (shift (shift (shift (shift (shift (shift (shift (register l ^^^ (b.setWidth 32 <<< 24)))))))))) ∧
    ∀ l, frameCheck l = register l ^^^ 0xFFFFFFFF) ∧
  (∀ station incarnation : Nat,
    let checked := fun l : List Byte => l ++ leBytes 4 (frameCheck l).toNat
    (Sys2Proof.Machine.Frame.hello station incarnation).bytes =
      checked ([1, BitVec.ofNat 8 station, 0, 0, 4, 0, 0, 0] ++ leBytes 2 incarnation ++ [0, 0]) ∧
    (Sys2Proof.Machine.Frame.idle station).bytes = checked [3, BitVec.ofNat 8 station, 0, 0, 0, 0, 0, 0]) ∧
  (∀ (l : List Byte) (ecc : Ecc),
    let f := fieldAt l
    let whole := l.length = 12 + f 4 4 ∧ (frameCheck (l.take (8 + f 4 4))).toNat = f (8 + f 4 4) 4
    (whole → f 0 1 = 2 → f 4 4 = 0 → frameStep l ecc = .readyFrame ecc) ∧
    (whole → f 0 1 = 3 → f 4 4 = 0 → frameStep l ecc = .idleFrame) ∧
    (whole → f 0 1 = 5 → f 4 4 = 12 → frameStep l ecc = .ack (f 8 4) (f 12 2) (BitVec.ofNat 32 (f 16 4)) ecc) ∧
    (whole → f 0 1 = 6 → f 4 4 = 8 → frameStep l ecc = .nak (f 8 4) (f 12 2) (f 14 1) ecc) ∧
    (¬ whole ∨ (f 0 1, f 4 4) ∉ [(2, 0), (3, 0), (5, 12), (6, 8)] → frameStep l ecc = .badFrame l)) ∧
  ∀ (ecc : Ecc) (s : State), s.operates = true →
    let sent := fun (f : Frame) => { s with odu := { s.odu with lastFrame := some f, sendTimer := 0 } }
    let heard := { s with odu := { s.odu with silenceTimer := 0 } }
    (s.odu.sending = none → Config.second ≤ s.odu.sendTimer →
      (s.odu.linkUp = false → exec .helloSend s = .next (sent (.hello s.stc.stationNumber (s.psi.incarnation.getD 0)))) ∧
      (s.odu.linkUp = true → exec .idleSend s = .next (sent (.idle s.stc.stationNumber)))) ∧
    (s.odu.linkUp = false →
      exec .idleFrame s = .next s ∧ exec (.lossOfSignal ecc) s = .next s ∧
      (ecc ≠ .uncorrectable ∨ s.cju.window ≠ .opened ∨ s.stc.state = .mute → ∃ t, exec (.readyFrame ecc) s = .next t ∧ t.odu.linkUp = true ∧ t.odu.silenceTimer = 0 ∧
        t.cqp = { s.cqp with causes := s.cqp.causes ||| Cause.linkUp.bit } ∧
        (s.cju.window ≠ .opened → t.odu.ownDemand = s.odu.ownDemand ∧ t.odu.ownShare = s.odu.ownShare ∧
          t.odu.tokens = s.odu.tokens) ∧
        (s.cju.window = .opened → shareComputed { s with odu := { s.odu with linkUp := true } } t.odu) ∧
        t = { s with cqp := t.cqp, odu := { s.odu with linkUp := true, silenceTimer := 0
                                                       ownDemand := t.odu.ownDemand, ownShare := t.odu.ownShare
                                                       tokens := t.odu.tokens } })) ∧
    (s.odu.linkUp = true →
      let lost := s.odu.places.map Place.slot
      let moved := s.odu.places.filterMap fun p =>
        (s.cju.frozen.find? fun y => decide (y.handle = p.handle)).map fun y => { y with step := .waiting }
      let frozen := moved ++ s.cju.frozen.filter fun y => !(s.odu.places.map Place.handle).contains y.handle
      let settled := s.cju.window = .settling ∧ s.cju.report = none ∧ s.odu.completions = []
      let down := fun t : State =>
        (¬ settled → t.cju = { s.cju with frozen := frozen } ∧ t.cqp = { s.cqp with
          waiting := s.cqp.waiting.filter (fun u => decide (u ≠ .staging))
          causes := s.cqp.causes ||| Cause.linkDown.bit }) ∧
        (settled → t.cju = { s.cju with frozen := frozen, report := t.cju.report } ∧
          (∃ r, t.cju.report = some r ∧ r.nightNumber = s.cju.nightNumber ∧ r.frozenEntries = frozen.length ∧
            r.failures = s.cju.figures.failures) ∧
          t.cqp = { s.cqp with
            waiting := (s.cqp.waiting.filter fun u => decide (u = .reclaim) && s.xtu.batchWaiting) ++ [.report]
            causes := s.cqp.causes ||| Cause.linkDown.bit }) ∧
        t.odu.slots.length = s.odu.slots.length ∧
        (∀ i, i < s.odu.slots.length → t.slot i = if i ∈ lost then ⟨.free, none, none, none⟩ else s.slot i) ∧
        t = { s with cju := t.cju, cqp := t.cqp, odu := { s.odu with
          linkUp := false, sending := none, places := [], resends := [], sendTimer := Config.second
          ownDemand := 0, ownShare := 0, tokens := 0
          slots := t.odu.slots
          readyOrder := s.odu.readyOrder.filter fun i => decide (i ∉ lost) } }
      exec .idleFrame s = .next heard ∧ exec (.readyFrame ecc) s = .next heard ∧
      (ecc ≠ .uncorrectable ∨ s.odu.places = [] ∧ ¬ settled →
        (∃ t, exec (.lossOfSignal ecc) s = .next t ∧ down t) ∧
        (Config.linkSilenceLimit ≤ s.odu.silenceTimer → ∃ t, exec (.linkSilenceTimeout ecc) s = .next t ∧ down t))) ∧
    ∀ data, exec (.badFrame data) s = .next s

/-- A first COPY send takes the READY slot at the head of the ready order, one of the four places, length × 1,000 thousandths of
tokens and the next attempt number, which passes from 65,535 to 1 (R157, R158); a resend, which goes ahead of every first send,
takes its place again under the next attempt number, in its position of first-send order. The bytes of a COPY frame lie as R201
places them, an absent death epoch being 0 and the data the slot's from its first byte on. The reply timer starts at the frame's
last byte; a second that passed while the frame was sent leaves an IDLE due (R154, R156). That a COPY is not begun while a HELLO
or an IDLE is due, and that the bytes which no field of its frame occupies are 0, are the model's choices (assumptions 25 and 41),
and so is that tokens left in the accumulator are spent while the own share is 0, which R158 does not ask to be above 0 and of
which R165 says that no COPY is sent while it lasts (assumption 54). Each millisecond adds the own share to the tokens, up to the
bucket depth of the greater of twice the share and 256 blocks (R165). -/
def Obligations.CopyIsSentOnTokens : Prop :=
  (∀ (station handle attempt target volume owner length birth : Nat) (death : Option Nat) (tag : Nat) (check : Word32)
      (data : List Byte),
    let head := [4, BitVec.ofNat 8 station, 0, 0] ++ leBytes 4 (32 + data.length) ++
      leBytes 4 handle ++ leBytes 2 attempt ++ [BitVec.ofNat 8 target, BitVec.ofNat 8 volume] ++ leBytes 2 owner ++
      leBytes 2 length ++ leBytes 4 birth ++ leBytes 4 (death.getD 0) ++ leBytes 4 tag ++ leBytes 4 check.toNat ++ [0, 0, 0, 0]
    (Sys2Proof.Machine.Frame.copy station handle attempt target volume owner length birth death tag check data).bytes =
      head ++ data ++ leBytes 4 (frameCheck (head ++ data)).toNat) ∧
  (∀ (s : State) (slot length : Nat), (s.slotData slot length).length = 4096 * length ∧
    ∀ i, i < 4096 * length → (s.slotData slot length)[i]? = some (memRead s.staging (1048576 * slot + i))) ∧
  (∀ (ecc : Ecc) (s : State) (i : Nat) (rest : List Nat) (load : SlotLoad) (check : Word32), ecc ≠ .uncorrectable →
    s.stc.state = .active → s.odu.linkUp = true → s.cju.window = .opened → s.odu.sending = none →
    s.odu.sendTimer < Config.second → (s.slot i).load = some load → (s.slot i).check = some check →
    load.length * 1000 ≤ s.odu.tokens →
    let n := if s.odu.attemptNumber < 65535 then s.odu.attemptNumber + 1 else 1
    let r := s.extent load.handle
    let f := s.frozenEntry load.handle
    let begun : Odu := { s.odu with
      tokens := s.odu.tokens - load.length * 1000
      attemptNumber := n
      sending := some n
      lastFrame := some (.copy s.stc.stationNumber load.handle n (s.config.targetMap.getD load.volume 0) load.volume
        ((r.map ExtentRec.owner).getD 0) load.length ((f.map FrozenEntry.birth).getD 0) (r.bind ExtentRec.death)
        ((f.map FrozenEntry.tag).getD 0) check (s.slotData i load.length)) }
    (s.odu.resends = [] → s.odu.readyOrder = i :: rest → s.odu.places.length < 4 → exec (.copySend ecc) s = .next { s with
      odu := { begun with
        places := s.odu.places ++ [⟨load.handle, i, n, .awaiting none⟩]
        slots := s.odu.slots.set i ⟨.inFlight, some load, none, some check⟩
        readyOrder := rest }
      cju := { s.cju with frozen := s.cju.frozen.map fun x =>
        if x.handle = load.handle then { x with step := .inFlight } else x } }) ∧
    (s.odu.resends = [] → s.odu.readyOrder = i :: rest → 4 ≤ s.odu.places.length → exec (.copySend ecc) s = .next s) ∧
    (s.odu.resends = i :: rest → exec (.copySend ecc) s = .next { s with odu := { begun with
      places := s.odu.places.map fun p => if p.slot = i then { p with attempt := n, state := .awaiting none } else p
      resends := rest } })) ∧
  (∀ (s : State) (n : Nat), s.odu.sending = some n → exec .copySendEnd s = .next { s with odu := { s.odu with
    sending := none
    sendTimer := if s.odu.sendTimer < 25000000 then 0 else s.odu.sendTimer
    places := s.odu.places.map fun p =>
      if p.attempt = n ∧ p.state = .awaiting none then { p with state := .awaiting (some 0) } else p } }) ∧
  ∀ s : State, s.stc.state ≠ .halted → 25000 ≤ s.odu.tokenTimer → exec .tokenGain s = .next { s with odu := { s.odu with
    tokens := min (1000 * max (2 * s.odu.ownShare) 256) (s.odu.tokens + s.odu.ownShare), tokenTimer := 0 } }

/-- The received bytes that are an ACK or a NAK are those of `LinkRisesAndFalls`. A reply that matches no place awaiting one, by
handle and attempt number, restarts the silence timer and does no more (R157, R159, R160). A NAK of BUSY while the window is open
starts a wait of 1 s, after which the frame is due again. An ACK whose check differs, a NAK of another reason and a reply timer at
2 s count a failure: below the third, the frame joins the resends; with the third, the place is released, the slot freed, and the
entry goes by the failure path to the tail as WAITING (R139, R161). While the window is not open each of these, and a NAK of BUSY,
releases the place, frees the slot and reverts the entry in place; in SETTLING, with no other frame outstanding and no completion
waiting, that settles the night (R141, R162). That the report then waits for NIGHT_REPORT with the window still in SETTLING, also
where the notice queue has room, is the model's choice (assumption 40); that the reversion is the same in CLOSED and SKIPPED,
which R162 states for SETTLING, is its reading (assumption 24). -/
def Obligations.RepliesSettleOrResend : Prop :=
  ∀ (ecc : Ecc) (s : State), s.operates = true → ecc ≠ .uncorrectable →
    let heard := { s with odu := { s.odu with silenceTimer := 0 } }
    (∀ h n check reason, s.odu.linkUp = true →
      (∀ p ∈ s.odu.places, p.handle = h → p.attempt = n → ∀ t, p.state ≠ .awaiting t) →
      exec (.ack h n check ecc) s = .next heard ∧ exec (.nak h n reason ecc) s = .next heard) ∧
    ∀ before p after, s.odu.places = before ++ p :: after →
      (∀ q ∈ before ++ after, q.slot ≠ p.slot ∧ ¬ (q.handle = p.handle ∧ q.attempt = p.attempt)) →
      let moved := fun (st : PlaceState) => before ++ { p with state := st } :: after
      let freed := fun (silence : Nat) => { s.odu with
        silenceTimer := silence
        places := before ++ after
        slots := s.odu.slots.set p.slot ⟨.free, none, none, none⟩
        readyOrder := s.odu.readyOrder.filter fun i => decide (i ≠ p.slot)
        resends := s.odu.resends.filter fun i => decide (i ≠ p.slot) }
      let fails := fun (i : Instr) (silence : Nat) =>
        (∃ timer check, p.state = .awaiting timer ∧ s.odu.linkUp = true ∧ (s.slot p.slot).check ≠ some check ∧
          i = .ack p.handle p.attempt check ecc ∧ silence = 0) ∨
        (∃ timer reason, p.state = .awaiting timer ∧ s.odu.linkUp = true ∧ reason ≠ 1 ∧
          i = .nak p.handle p.attempt reason ecc ∧ silence = 0) ∨
        ∃ timer, p.state = .awaiting (some timer) ∧ 2 * 25000000 ≤ timer ∧ i = .replyTimeout p.slot ecc ∧
          silence = s.odu.silenceTimer
      (∀ timer, s.cju.window = .opened → p.state = .awaiting timer → s.odu.linkUp = true →
        exec (.nak p.handle p.attempt 1 ecc) s = .next { s with odu := { s.odu with
          silenceTimer := 0, places := moved (.busyWait 0) } }) ∧
      (∀ t, p.state = .busyWait t → 25000000 ≤ t → exec (.busyWaitEnd p.slot) s = .next { s with odu := { s.odu with
        places := moved .resendDue, resends := s.odu.resends ++ [p.slot] } }) ∧
      (∀ i silence x, s.cju.window = .opened → fails i silence →
        s.cju.frozen.find? (fun y => decide (y.handle = p.handle)) = some x →
        (x.attempts < 2 → exec i s = .next { s with
          odu := { s.odu with
            silenceTimer := silence, places := moved .resendDue, resends := s.odu.resends ++ [p.slot] }
          cju := { s.cju with frozen := s.cju.frozen.map fun y =>
            if y.handle = p.handle then { y with attempts := x.attempts + 1 } else y } }) ∧
        (2 ≤ x.attempts → exec i s = .next { s with
          odu := freed silence
          cju := { s.cju with
            frozen := s.cju.frozen.filter (fun y => decide (y.handle ≠ p.handle)) ++ [{ x with
              step := .waiting
              attempts := 0
              nightsFailed := if x.failedNight = some s.cju.nightNumber then x.nightsFailed else min 255 (x.nightsFailed + 1)
              failedNight := some s.cju.nightNumber }]
            figures := { s.cju.figures with failures := s.cju.figures.failures + 1 } } })) ∧
      ∀ i silence, s.cju.window ≠ .opened →
        (fails i silence ∨ ∃ timer, p.state = .awaiting timer ∧ s.odu.linkUp = true ∧ i = .nak p.handle p.attempt 1 ecc ∧
          silence = 0) →
        let reverted := { s.cju with frozen := s.cju.frozen.map fun y =>
          if y.handle = p.handle then { y with step := .waiting, attempts := 0 } else y }
        let settles := s.cju.window = .settling ∧ s.cju.report = none ∧ before ++ after = [] ∧ s.odu.completions = []
        (¬ settles → exec i s = .next { s with odu := freed silence, cju := reverted }) ∧
        (settles → ∃ r, exec i s = .next { s with
            odu := freed silence
            cju := { reverted with report := some r }
            cqp := { s.cqp with waiting :=
              (s.cqp.waiting.filter fun u => decide (u = .reclaim) && s.xtu.batchWaiting) ++ [.report] } } ∧
          r.nightNumber = s.cju.nightNumber ∧ r.frozenEntries = s.cju.frozen.length ∧ r.failures = s.cju.figures.failures)

/-- A copy completion (R138), by a matching ACK with the slot's check value, whatever other frames are outstanding, or, where it
waited for batch room, by COPY_COMPLETION, which takes the oldest that no longer waits, the model's reading (assumption 11): the
entry leaves the frozen generation, the place and the slot are freed, the figures rise, and the undrained count of the record of
its tag falls by 1. An unmarked extent's copy state becomes COPIED; a marked one is deleted, leaving the Held List for the batch
while H falls (R45), and waits with everything else where the batch is full; the deletion that fills the batch posts it, a paused
sweep going on, or leaves it waiting where the queue has no room (R42, R44, R46). A DUE record whose last entry this was, and
which nothing else holds, is removed, the sweep being signalled and CATALOGUE-CHANGED raised (R66, R69). R138 names the removal
test before the deletion; that the sweep is signalled over the Held List and the batch as the deletion has left them is the
model's choice (assumption 23). In SETTLING, with no other frame outstanding and no completion waiting, the completion settles the
night and its report is built (R141); that the report then waits for NIGHT_REPORT also where the queue has room is the model's
choice (assumption 40). Of the units that begin to wait for a notice place in one event, staging, which may come to want one only
because the completion frees a slot, stands before the batch that the same completion fills, and the batch before the report that
it builds: the model's choice (assumption 12). -/
def Obligations.CopyCompletesItsEntry : Prop :=
  ∀ (i : Instr) (ecc : Ecc) (s : State) (before after : List FrozenEntry) (x : FrozenEntry) (slot : Nat) (load : SlotLoad)
    (check : Word32) (timer : Option Nat) (r : ExtentRec) (places : List Place) (completions : List Nat) (silence : Nat),
    s.operates = true → ecc ≠ .uncorrectable →
    s.cju.frozen = before ++ x :: after → (∀ y ∈ before ++ after, y.handle ≠ x.handle) →
    s.slot slot = ⟨.inFlight, some load, timer, some check⟩ → load.handle = x.handle →
    s.extent x.handle = some r →
    let full := 16 ≤ s.xtu.batch.length
    let waits := fun j : Nat => full ∧ ∃ l y, (s.slot j).load = some l ∧ s.extent l.handle = some y ∧ y.mark = true
    let acked := s.odu.linkUp = true ∧ silence = 0 ∧ completions = s.odu.completions ∧ ∃ earlier p later,
      s.odu.places = earlier ++ p :: later ∧ places = earlier ++ later ∧
      (∀ q ∈ places, q.slot ≠ slot ∧ ¬ (q.handle = x.handle ∧ q.attempt = p.attempt)) ∧
      p.handle = x.handle ∧ p.slot = slot ∧ (∃ t, p.state = .awaiting t) ∧ i = .ack x.handle p.attempt check ecc
    let resumed := silence = s.odu.silenceTimer ∧ places = s.odu.places ∧ i = .copyCompletion ecc ∧ ∃ earlier later,
      s.odu.completions = earlier ++ slot :: later ∧ completions = earlier ++ later ∧ slot ∉ completions ∧
      ∀ j ∈ earlier, waits j
    (r.mark = true → full →
      (resumed → (∀ j ∈ completions, waits j) → exec i s = .next s) ∧
      (acked → exec i s = .next { s with odu := { s.odu with
        silenceTimer := 0, places := places, completions := completions ++ [slot] } })) ∧
    (acked ∨ resumed → r.mark = false ∨ s.xtu.batch.length < 16 →
      let figures := { s.cju.figures with
        extentsCopied := s.cju.figures.extentsCopied + 1, blocksCopied := s.cju.figures.blocksCopied + x.length }
      let journal : Cju := { s.cju with frozen := before ++ after, figures := figures }
      let freed : Odu := { s.odu with
        silenceTimer := silence
        places := places
        completions := completions
        slots := s.odu.slots.set slot ⟨.free, none, none, none⟩
        readyOrder := s.odu.readyOrder.filter fun j => decide (j ≠ slot)
        resends := s.odu.resends.filter fun j => decide (j ≠ slot) }
      let mid : State := { s with cju := journal, odu := freed }
      let gone : Xtu := { s.xtu with
        extents := tableErase x.handle s.xtu.extents
        heldList := s.xtu.heldList.filter fun h => decide (h ≠ x.handle)
        sweep := { s.xtu.sweep with range := s.xtu.sweep.range.filter fun h => decide (h ≠ x.handle) }
        batch := s.xtu.batch ++ [x.handle]
        batchTimer := if s.xtu.batch = [] then 0 else s.xtu.batchTimer }
      let xtu : Xtu :=
        if r.mark = false then { s.xtu with extents := tableInsert x.handle { r with copy := some .copied } s.xtu.extents }
        else if s.xtu.batch.length < 15 then gone
        else if mid.canHand .reclaim = true then { gone with
          batch := []
          batchTimer := 0
          batchWaiting := false
          sweep :=
            if gone.sweep.state ≠ .paused then gone.sweep
            else if gone.sweep.range ≠ [] then { gone.sweep with state := .running }
            else if gone.sweep.again = true ∧ gone.heldList ≠ [] then ⟨.running, gone.heldList, false⟩
            else ⟨.idle, [], false⟩ }
        else { gone with batchWaiting := true }
      let port : Cqp :=
        if r.mark = false ∨ s.xtu.batch.length < 15 then s.cqp
        else if mid.canHand .reclaim = true then { s.cqp with
          notices := s.cqp.notices ++ [.reclaim (s.xtu.batch ++ [x.handle])]
          waiting := s.cqp.waiting.filter fun u => decide (u ≠ .reclaim) }
        else { s.cqp with waiting := (mid.await .reclaim).cqp.waiting }
      let drained := s.scu.catalogue.map fun y => if y.epoch = x.tag then { y with undrained := y.undrained - 1 } else y
      let passes := ∃ y, s.snapshot x.tag = some y ∧ y.due = true ∧ y.undrained ≤ 1 ∧ s.pins x.tag = 0 ∧
        s.scu.protectedSet.getLsbD y.group = false
      let report : NightReport := ⟨s.cju.nightNumber, figures.skipped, s.cju.nightly, figures.carriedOver, figures.frozenTonight,
        figures.extentsCopied, figures.blocksCopied, figures.failures, (before ++ after).length,
        ((before ++ after).map FrozenEntry.length).sum, s.cju.openGen.length, (s.cju.openGen.map OpenEntry.length).sum⟩
      ∃ v : State,
        exec i s = .next (
          if s.cju.window = .settling ∧ s.cju.report = none ∧ places = [] ∧ completions = [] then { v with
            cju := { journal with report := some report }
            cqp := { v.cqp with
              waiting := (v.cqp.waiting.filter fun u => decide (u = .reclaim) && v.xtu.batchWaiting) ++ [.report] } }
          else v) ∧
        v.cju = journal ∧ v.odu = freed ∧
        (r.mark = true →
          let o := s.opened r.owner
          let left : OwnerRec := { o with held := o.held - r.length }
          accessedTo s v r.owner { left with grace := s.graceAfter left }) ∧
        (r.mark = false → v.qsu = s.qsu ∧ v.uvu = s.uvu) ∧
        (¬ passes → v.scu = { s.scu with catalogue := drained } ∧ v.xtu = xtu ∧ v.cqp = port) ∧
        (passes → v.scu = { s.scu with catalogue := s.scu.catalogue.filter fun y => decide (y.epoch ≠ x.tag) } ∧
          ∃ cqp, sweepSignalled { mid with xtu := xtu, cqp := port } v.xtu cqp ∧
            v.cqp = { cqp with causes := s.cqp.causes ||| Cause.catalogueChanged.bit }) ∧
        v = { s with cju := v.cju, xtu := v.xtu, scu := v.scu, odu := v.odu, cqp := v.cqp, qsu := v.qsu, uvu := v.uvu })

/-! ### Table faults and the laws of the device -/

/-- A step that works on table memory and meets an uncorrectable error halts the station with reason TABLE, writes no table and
leaves its command uncompleted (R28, R195). For every row with an answer of table memory: its answer under an uncorrectable error
is that halt or, where it meets no table, the step it is without one; and where the step without one would change a table, or
would move a command on other than to a refusal that needs no table, it is that halt. A SET-CLOCK that takes no expiry pass, and a
START dispatched RESUME, touch on-chip state alone and meet none (R189, R193). The steps that only read halt likewise where they
act, the posting of a batch where it starts a sweep again (R44, R51), and others where they touch an entry, K or the demand, being
otherwise the steps they are without an error: a sweep that pauses, or ends and starts none; a tick that builds no BEACON and
forms no demand from the journal; a window end at which no entry reverts and no report is built; a loss of the link with no place
outstanding and no night to settle; and a READY with the window not OPEN, or in MUTE. The steps that end a restore context halt
with the items done of those that meet no error before it, and the rest untouched (R85, R91). The model's choices: that an
uncorrectable error is met at a step's first access, what a step has done before it (a bulletin taken, a timer restarted) staying
done (assumption 6); how many items an end of a context deals with (assumption 7); and that handing over a built night report
meets table memory (assumption 52); and, where no rule says which events touch the tables, that those named here and no others do
(assumption 53). That what no chapter names stays as it was at entry to HALTED is the model's reading (assumption 20). -/
def Obligations.TableFaultHalts : Prop :=
  (∀ (i clean faulty : Instr) (s : State), underEcc .clean i = some clean → underEcc .uncorrectable i = some faulty →
    let onChip := (∃ day second ecc, i = .setClock day second ecc ∧ (s.operates = false ∨ second < 60 * s.config.expiryMinute)) ∨
      (∃ mode n day second ecc, i = .start mode n day second ecc ∧
        (mode = some .resume ∨ mode = some .auto ∧ s.stc.marker = true ∧ s.config.keepTables = true))
    ∃ t u, exec clean s = .next t ∧ exec faulty s = .next u ∧ (u = t ∨ tableHalt s u) ∧
      (¬ sameTables s t → tableHalt s u) ∧
      (onChip → u = t) ∧
      (¬ onChip → (∃ (r : Ring) (e : InProgress), e ∈ (t.cqp.ring r).inProgress ∧ e ∉ (s.cqp.ring r).inProgress ∧
          ∀ c, e.phase = .settled c →
            c.outcome ∉ [.badField, .notNow, .callPending, .noTables, .stale, .noContext, .limited, .itemLimit]) →
        tableHalt s u)) ∧
  (∀ s : State, s.operates = true →
    let halts := fun (i : Instr) => ∃ t, exec i s = .next t ∧ tableHalt s t
    let either := fun (touches : Prop) (i : Ecc → Instr) =>
      (touches → halts (i .uncorrectable)) ∧ (¬ touches → exec (i .uncorrectable) s = exec (i .clean) s)
    let lost := s.odu.places ≠ [] ∨ s.cju.window = .settling ∧ s.cju.report = none ∧ s.odu.completions = []
    (∀ o rest, s.uvu.reports = o :: rest → halts (.dirtyReport .uncorrectable)) ∧
    (s.xtu.sweep.state = .running → either (s.xtu.sweep.range ≠ [] ∧ s.xtu.batch.length < 16 ∨
      s.xtu.sweep.range = [] ∧ s.xtu.sweep.again = true ∧ (s.xtu.batch = [] ∨ s.canHand .reclaim = true)) .sweepVisit) ∧
    (s.xtu.sweep.state = .paused → s.xtu.sweep.range = [] → s.xtu.sweep.again = true → s.canHand .reclaim = true →
      (s.xtu.batchWaiting = true → halts (.reclaimBatchPost .uncorrectable)) ∧
      (s.xtu.batch ≠ [] → s.xtu.batchWaiting = false → Config.second ≤ s.xtu.batchTimer →
        halts (.reclaimBatchTimeout .uncorrectable))) ∧
    (∀ b, s.tickDue = true → either (s.stc.state = .active ∨ s.stc.state = .listening ∧ 2 ≤ s.psi.listeningTicks ∨
      s.cju.window = .opened ∧ s.stc.state ≠ .mute ∧ s.odu.linkUp = true) fun ecc => .beaconTick ⟨b, ecc⟩) ∧
    (∀ w, s.uvu.walk = some w → halts (.purgeVisit .uncorrectable)) ∧
    (∀ w, s.psi.handed = some w → halts (.usageApply .uncorrectable)) ∧
    (s.walkerDue = true → s.psi.usage = none → halts (.walkerExpiry .uncorrectable)) ∧
    (s.stc.expiryMoment = true → halts (.expiryPass .uncorrectable)) ∧
    (s.stc.windowMoment = true → s.cju.window = .closed → halts (.windowStart .uncorrectable)) ∧
    (s.cju.windowLeft = some 0 → s.cju.window = .skipped → halts (.windowEnd .uncorrectable)) ∧
    (s.cju.windowLeft = some 0 → s.cju.window = .opened → either ((∃ x ∈ s.odu.slots, x.state = .staging ∨ x.state = .ready) ∨
      (∃ p ∈ s.odu.places, ∀ w, p.state ≠ .awaiting w) ∨
      s.odu.places = [] ∧ s.odu.completions = [] ∧ s.cju.report = none) .windowEnd) ∧
    (s.odu.linkUp = true → either lost .lossOfSignal ∧
      (Config.linkSilenceLimit ≤ s.odu.silenceTimer → either lost .linkSilenceTimeout)) ∧
    (s.odu.linkUp = false → either (s.cju.window = .opened ∧ s.stc.state ≠ .mute) .readyFrame)) ∧
  ∀ (s : State) (x tag n : Nat) (i : Ecc → Instr) (t : State), s.operates = true →
    i = .restoreCommit x tag n ∨ i = .restoreAbort x tag n ∨ i = .idleExpiry x n →
    exec (i .clean) s = .next t → t.rcu.work ≠ none → t ≠ s →
    (∃ u, exec (i .uncorrectable) s = .next u ∧ tableHalt t u) ∧ (n = 0 → sameTables s t)

/-- The laws of the device hold in `State.reset`, the machine as power-on leaves it. R72 gives the tables no content then and the
manual the memories none: that they are empty, with which the Catalogue law and the memory law hold, is the model's choice
(assumptions 2 and 3), and so are the reset values the manual does not state (assumption 19). -/
def Obligations.LawsHoldAfterReset : Prop := State.reset.lawful

/-- The Catalogue holds at most 64 records, epochs strictly ascending, none above K, and every step keeps it so (R52, R54). -/
def Obligations.CatalogueLawIsKept : Prop :=
  ∀ s t : State, s.catalogueLaw → step s = .next t → t.catalogueLaw

/-- Every list of fixed capacity keeps within it, every table of fixed size keeps its size, both addressed memories keep their
canonical form, and the entries of both in-progress lists are those of the positions behind the fetch position (R171), over every
step. -/
def Obligations.CapacitiesAndFormsAreKept : Prop :=
  ∀ s t : State, step s = .next t →
    (s.capacityLaw → s.memoryLaw → t.capacityLaw ∧ t.memoryLaw) ∧ (s.ringLaw → t.ringLaw)

/-- The own egress share never exceeds the cap or the own demand and is 0 outside the night window, in MUTE and while the link is
DOWN, and the tokens lie within the bucket, over every step (R164, R165). -/
def Obligations.EgressLawIsKept : Prop :=
  ∀ s t : State, s.egressLaw → step s = .next t → t.egressLaw

/-- Outside ACTIVE the transmitter is IDLE and no holding slot is occupied, over every step (R95). -/
def Obligations.SilenceLawIsKept : Prop :=
  ∀ s t : State, s.silenceLaw → step s = .next t → t.silenceLaw
end

