-- ==== Sys2Proof/Laws/State.lean ====
section
/-! SUPPORT. Beside the state: which units each operation leaves alone, one lemma per operation and field, true by
definition. -/

namespace Sys2Proof.Machine

variable (s : State)

@[simp] theorem State.withState_cqp (st : StationState) : (s.withState st).cqp = s.cqp := rfl
@[simp] theorem State.withState_qsu (st : StationState) : (s.withState st).qsu = s.qsu := rfl
@[simp] theorem State.withState_xtu (st : StationState) : (s.withState st).xtu = s.xtu := rfl
@[simp] theorem State.withState_scu (st : StationState) : (s.withState st).scu = s.scu := rfl
@[simp] theorem State.withState_rcu (st : StationState) : (s.withState st).rcu = s.rcu := rfl
@[simp] theorem State.withState_psi (st : StationState) : (s.withState st).psi = s.psi := rfl
@[simp] theorem State.withState_uvu (st : StationState) : (s.withState st).uvu = s.uvu := rfl
@[simp] theorem State.withState_cju (st : StationState) : (s.withState st).cju = s.cju := rfl
@[simp] theorem State.withState_odu (st : StationState) : (s.withState st).odu = s.odu := rfl
@[simp] theorem State.withState_staging (st : StationState) : (s.withState st).staging = s.staging := rfl
@[simp] theorem State.withState_host (st : StationState) : (s.withState st).host = s.host := rfl
@[simp] theorem State.withState_pending (st : StationState) : (s.withState st).pending = s.pending := rfl

@[simp] theorem State.raise_stc (c : Cause) : (s.raise c).stc = s.stc := rfl
@[simp] theorem State.raise_qsu (c : Cause) : (s.raise c).qsu = s.qsu := rfl
@[simp] theorem State.raise_xtu (c : Cause) : (s.raise c).xtu = s.xtu := rfl
@[simp] theorem State.raise_scu (c : Cause) : (s.raise c).scu = s.scu := rfl
@[simp] theorem State.raise_rcu (c : Cause) : (s.raise c).rcu = s.rcu := rfl
@[simp] theorem State.raise_psi (c : Cause) : (s.raise c).psi = s.psi := rfl
@[simp] theorem State.raise_uvu (c : Cause) : (s.raise c).uvu = s.uvu := rfl
@[simp] theorem State.raise_cju (c : Cause) : (s.raise c).cju = s.cju := rfl
@[simp] theorem State.raise_odu (c : Cause) : (s.raise c).odu = s.odu := rfl
@[simp] theorem State.raise_staging (c : Cause) : (s.raise c).staging = s.staging := rfl
@[simp] theorem State.raise_host (c : Cause) : (s.raise c).host = s.host := rfl
@[simp] theorem State.raise_pending (c : Cause) : (s.raise c).pending = s.pending := rfl

@[simp] theorem State.settle_stc (r : Ring) (n : Nat) (v : Verdict) : (s.settle r n v).stc = s.stc := rfl
@[simp] theorem State.settle_qsu (r : Ring) (n : Nat) (v : Verdict) : (s.settle r n v).qsu = s.qsu := rfl
@[simp] theorem State.settle_xtu (r : Ring) (n : Nat) (v : Verdict) : (s.settle r n v).xtu = s.xtu := rfl
@[simp] theorem State.settle_scu (r : Ring) (n : Nat) (v : Verdict) : (s.settle r n v).scu = s.scu := rfl
@[simp] theorem State.settle_rcu (r : Ring) (n : Nat) (v : Verdict) : (s.settle r n v).rcu = s.rcu := rfl
@[simp] theorem State.settle_psi (r : Ring) (n : Nat) (v : Verdict) : (s.settle r n v).psi = s.psi := rfl
@[simp] theorem State.settle_uvu (r : Ring) (n : Nat) (v : Verdict) : (s.settle r n v).uvu = s.uvu := rfl
@[simp] theorem State.settle_cju (r : Ring) (n : Nat) (v : Verdict) : (s.settle r n v).cju = s.cju := rfl
@[simp] theorem State.settle_odu (r : Ring) (n : Nat) (v : Verdict) : (s.settle r n v).odu = s.odu := rfl
@[simp] theorem State.settle_staging (r : Ring) (n : Nat) (v : Verdict) : (s.settle r n v).staging = s.staging := rfl
@[simp] theorem State.settle_host (r : Ring) (n : Nat) (v : Verdict) : (s.settle r n v).host = s.host := rfl
@[simp] theorem State.settle_pending (r : Ring) (n : Nat) (v : Verdict) : (s.settle r n v).pending = s.pending := rfl

@[simp] theorem State.settleB_stc (e : InProgress) (v : Verdict) : (s.settleB e v).stc = s.stc := rfl
@[simp] theorem State.settleB_qsu (e : InProgress) (v : Verdict) : (s.settleB e v).qsu = s.qsu := rfl
@[simp] theorem State.settleB_xtu (e : InProgress) (v : Verdict) : (s.settleB e v).xtu = s.xtu := rfl
@[simp] theorem State.settleB_scu (e : InProgress) (v : Verdict) : (s.settleB e v).scu = s.scu := rfl
@[simp] theorem State.settleB_rcu (e : InProgress) (v : Verdict) : (s.settleB e v).rcu = s.rcu := rfl
@[simp] theorem State.settleB_psi (e : InProgress) (v : Verdict) : (s.settleB e v).psi = s.psi := rfl
@[simp] theorem State.settleB_uvu (e : InProgress) (v : Verdict) : (s.settleB e v).uvu = s.uvu := rfl
@[simp] theorem State.settleB_cju (e : InProgress) (v : Verdict) : (s.settleB e v).cju = s.cju := rfl
@[simp] theorem State.settleB_odu (e : InProgress) (v : Verdict) : (s.settleB e v).odu = s.odu := rfl
@[simp] theorem State.settleB_staging (e : InProgress) (v : Verdict) : (s.settleB e v).staging = s.staging := rfl
@[simp] theorem State.settleB_host (e : InProgress) (v : Verdict) : (s.settleB e v).host = s.host := rfl
@[simp] theorem State.settleB_pending (e : InProgress) (v : Verdict) : (s.settleB e v).pending = s.pending := rfl

@[simp] theorem State.settleU_stc (e : InProgress) (v : Verdict) : (s.settleU e v).stc = s.stc := rfl
@[simp] theorem State.settleU_qsu (e : InProgress) (v : Verdict) : (s.settleU e v).qsu = s.qsu := rfl
@[simp] theorem State.settleU_xtu (e : InProgress) (v : Verdict) : (s.settleU e v).xtu = s.xtu := rfl
@[simp] theorem State.settleU_scu (e : InProgress) (v : Verdict) : (s.settleU e v).scu = s.scu := rfl
@[simp] theorem State.settleU_rcu (e : InProgress) (v : Verdict) : (s.settleU e v).rcu = s.rcu := rfl
@[simp] theorem State.settleU_psi (e : InProgress) (v : Verdict) : (s.settleU e v).psi = s.psi := rfl
@[simp] theorem State.settleU_uvu (e : InProgress) (v : Verdict) : (s.settleU e v).uvu = s.uvu := rfl
@[simp] theorem State.settleU_cju (e : InProgress) (v : Verdict) : (s.settleU e v).cju = s.cju := rfl
@[simp] theorem State.settleU_odu (e : InProgress) (v : Verdict) : (s.settleU e v).odu = s.odu := rfl
@[simp] theorem State.settleU_staging (e : InProgress) (v : Verdict) : (s.settleU e v).staging = s.staging := rfl
@[simp] theorem State.settleU_host (e : InProgress) (v : Verdict) : (s.settleU e v).host = s.host := rfl
@[simp] theorem State.settleU_pending (e : InProgress) (v : Verdict) : (s.settleU e v).pending = s.pending := rfl

@[simp] theorem State.phase_stc (r : Ring) (n : Nat) (p : Phase) : (s.phase r n p).stc = s.stc := rfl
@[simp] theorem State.phase_qsu (r : Ring) (n : Nat) (p : Phase) : (s.phase r n p).qsu = s.qsu := rfl
@[simp] theorem State.phase_xtu (r : Ring) (n : Nat) (p : Phase) : (s.phase r n p).xtu = s.xtu := rfl
@[simp] theorem State.phase_scu (r : Ring) (n : Nat) (p : Phase) : (s.phase r n p).scu = s.scu := rfl
@[simp] theorem State.phase_rcu (r : Ring) (n : Nat) (p : Phase) : (s.phase r n p).rcu = s.rcu := rfl
@[simp] theorem State.phase_psi (r : Ring) (n : Nat) (p : Phase) : (s.phase r n p).psi = s.psi := rfl
@[simp] theorem State.phase_uvu (r : Ring) (n : Nat) (p : Phase) : (s.phase r n p).uvu = s.uvu := rfl
@[simp] theorem State.phase_cju (r : Ring) (n : Nat) (p : Phase) : (s.phase r n p).cju = s.cju := rfl
@[simp] theorem State.phase_odu (r : Ring) (n : Nat) (p : Phase) : (s.phase r n p).odu = s.odu := rfl
@[simp] theorem State.phase_staging (r : Ring) (n : Nat) (p : Phase) : (s.phase r n p).staging = s.staging := rfl
@[simp] theorem State.phase_host (r : Ring) (n : Nat) (p : Phase) : (s.phase r n p).host = s.host := rfl
@[simp] theorem State.phase_pending (r : Ring) (n : Nat) (p : Phase) : (s.phase r n p).pending = s.pending := rfl

@[simp] theorem State.hand_stc (u : NoticeUnit) (n : Notice) : (s.hand u n).stc = s.stc := rfl
@[simp] theorem State.hand_qsu (u : NoticeUnit) (n : Notice) : (s.hand u n).qsu = s.qsu := rfl
@[simp] theorem State.hand_xtu (u : NoticeUnit) (n : Notice) : (s.hand u n).xtu = s.xtu := rfl
@[simp] theorem State.hand_scu (u : NoticeUnit) (n : Notice) : (s.hand u n).scu = s.scu := rfl
@[simp] theorem State.hand_rcu (u : NoticeUnit) (n : Notice) : (s.hand u n).rcu = s.rcu := rfl
@[simp] theorem State.hand_psi (u : NoticeUnit) (n : Notice) : (s.hand u n).psi = s.psi := rfl
@[simp] theorem State.hand_uvu (u : NoticeUnit) (n : Notice) : (s.hand u n).uvu = s.uvu := rfl
@[simp] theorem State.hand_cju (u : NoticeUnit) (n : Notice) : (s.hand u n).cju = s.cju := rfl
@[simp] theorem State.hand_odu (u : NoticeUnit) (n : Notice) : (s.hand u n).odu = s.odu := rfl
@[simp] theorem State.hand_staging (u : NoticeUnit) (n : Notice) : (s.hand u n).staging = s.staging := rfl
@[simp] theorem State.hand_host (u : NoticeUnit) (n : Notice) : (s.hand u n).host = s.host := rfl
@[simp] theorem State.hand_pending (u : NoticeUnit) (n : Notice) : (s.hand u n).pending = s.pending := rfl

@[simp] theorem State.withOwner_stc (o : Nat) (r : OwnerRec) : (s.withOwner o r).stc = s.stc := rfl
@[simp] theorem State.withOwner_cqp (o : Nat) (r : OwnerRec) : (s.withOwner o r).cqp = s.cqp := rfl
@[simp] theorem State.withOwner_xtu (o : Nat) (r : OwnerRec) : (s.withOwner o r).xtu = s.xtu := rfl
@[simp] theorem State.withOwner_scu (o : Nat) (r : OwnerRec) : (s.withOwner o r).scu = s.scu := rfl
@[simp] theorem State.withOwner_rcu (o : Nat) (r : OwnerRec) : (s.withOwner o r).rcu = s.rcu := rfl
@[simp] theorem State.withOwner_psi (o : Nat) (r : OwnerRec) : (s.withOwner o r).psi = s.psi := rfl
@[simp] theorem State.withOwner_uvu (o : Nat) (r : OwnerRec) : (s.withOwner o r).uvu = s.uvu := rfl
@[simp] theorem State.withOwner_cju (o : Nat) (r : OwnerRec) : (s.withOwner o r).cju = s.cju := rfl
@[simp] theorem State.withOwner_odu (o : Nat) (r : OwnerRec) : (s.withOwner o r).odu = s.odu := rfl
@[simp] theorem State.withOwner_staging (o : Nat) (r : OwnerRec) : (s.withOwner o r).staging = s.staging := rfl
@[simp] theorem State.withOwner_host (o : Nat) (r : OwnerRec) : (s.withOwner o r).host = s.host := rfl
@[simp] theorem State.withOwner_pending (o : Nat) (r : OwnerRec) : (s.withOwner o r).pending = s.pending := rfl

@[simp] theorem State.report_stc (o : Nat) (b : Bool) : (s.report o b).stc = s.stc := rfl
@[simp] theorem State.report_cqp (o : Nat) (b : Bool) : (s.report o b).cqp = s.cqp := rfl
@[simp] theorem State.report_qsu (o : Nat) (b : Bool) : (s.report o b).qsu = s.qsu := rfl
@[simp] theorem State.report_xtu (o : Nat) (b : Bool) : (s.report o b).xtu = s.xtu := rfl
@[simp] theorem State.report_scu (o : Nat) (b : Bool) : (s.report o b).scu = s.scu := rfl
@[simp] theorem State.report_rcu (o : Nat) (b : Bool) : (s.report o b).rcu = s.rcu := rfl
@[simp] theorem State.report_psi (o : Nat) (b : Bool) : (s.report o b).psi = s.psi := rfl
@[simp] theorem State.report_cju (o : Nat) (b : Bool) : (s.report o b).cju = s.cju := rfl
@[simp] theorem State.report_odu (o : Nat) (b : Bool) : (s.report o b).odu = s.odu := rfl
@[simp] theorem State.report_staging (o : Nat) (b : Bool) : (s.report o b).staging = s.staging := rfl
@[simp] theorem State.report_host (o : Nat) (b : Bool) : (s.report o b).host = s.host := rfl
@[simp] theorem State.report_pending (o : Nat) (b : Bool) : (s.report o b).pending = s.pending := rfl

@[simp] theorem State.access_stc (o : Nat) (f : OwnerRec → OwnerRec) : (s.access o f).stc = s.stc := rfl
@[simp] theorem State.access_cqp (o : Nat) (f : OwnerRec → OwnerRec) : (s.access o f).cqp = s.cqp := rfl
@[simp] theorem State.access_xtu (o : Nat) (f : OwnerRec → OwnerRec) : (s.access o f).xtu = s.xtu := rfl
@[simp] theorem State.access_scu (o : Nat) (f : OwnerRec → OwnerRec) : (s.access o f).scu = s.scu := rfl
@[simp] theorem State.access_rcu (o : Nat) (f : OwnerRec → OwnerRec) : (s.access o f).rcu = s.rcu := rfl
@[simp] theorem State.access_psi (o : Nat) (f : OwnerRec → OwnerRec) : (s.access o f).psi = s.psi := rfl
@[simp] theorem State.access_cju (o : Nat) (f : OwnerRec → OwnerRec) : (s.access o f).cju = s.cju := rfl
@[simp] theorem State.access_odu (o : Nat) (f : OwnerRec → OwnerRec) : (s.access o f).odu = s.odu := rfl
@[simp] theorem State.access_staging (o : Nat) (f : OwnerRec → OwnerRec) : (s.access o f).staging = s.staging := rfl
@[simp] theorem State.access_host (o : Nat) (f : OwnerRec → OwnerRec) : (s.access o f).host = s.host := rfl
@[simp] theorem State.access_pending (o : Nat) (f : OwnerRec → OwnerRec) : (s.access o f).pending = s.pending := rfl

@[simp] theorem State.withDirty_stc (o : Nat) (b : Bool) : (s.withDirty o b).stc = s.stc := rfl
@[simp] theorem State.withDirty_cqp (o : Nat) (b : Bool) : (s.withDirty o b).cqp = s.cqp := rfl
@[simp] theorem State.withDirty_xtu (o : Nat) (b : Bool) : (s.withDirty o b).xtu = s.xtu := rfl
@[simp] theorem State.withDirty_scu (o : Nat) (b : Bool) : (s.withDirty o b).scu = s.scu := rfl
@[simp] theorem State.withDirty_rcu (o : Nat) (b : Bool) : (s.withDirty o b).rcu = s.rcu := rfl
@[simp] theorem State.withDirty_psi (o : Nat) (b : Bool) : (s.withDirty o b).psi = s.psi := rfl
@[simp] theorem State.withDirty_uvu (o : Nat) (b : Bool) : (s.withDirty o b).uvu = s.uvu := rfl
@[simp] theorem State.withDirty_cju (o : Nat) (b : Bool) : (s.withDirty o b).cju = s.cju := rfl
@[simp] theorem State.withDirty_odu (o : Nat) (b : Bool) : (s.withDirty o b).odu = s.odu := rfl
@[simp] theorem State.withDirty_staging (o : Nat) (b : Bool) : (s.withDirty o b).staging = s.staging := rfl
@[simp] theorem State.withDirty_host (o : Nat) (b : Bool) : (s.withDirty o b).host = s.host := rfl
@[simp] theorem State.withDirty_pending (o : Nat) (b : Bool) : (s.withDirty o b).pending = s.pending := rfl

@[simp] theorem State.withExtent_stc (h : Nat) (r : ExtentRec) : (s.withExtent h r).stc = s.stc := rfl
@[simp] theorem State.withExtent_cqp (h : Nat) (r : ExtentRec) : (s.withExtent h r).cqp = s.cqp := rfl
@[simp] theorem State.withExtent_qsu (h : Nat) (r : ExtentRec) : (s.withExtent h r).qsu = s.qsu := rfl
@[simp] theorem State.withExtent_scu (h : Nat) (r : ExtentRec) : (s.withExtent h r).scu = s.scu := rfl
@[simp] theorem State.withExtent_rcu (h : Nat) (r : ExtentRec) : (s.withExtent h r).rcu = s.rcu := rfl
@[simp] theorem State.withExtent_psi (h : Nat) (r : ExtentRec) : (s.withExtent h r).psi = s.psi := rfl
@[simp] theorem State.withExtent_uvu (h : Nat) (r : ExtentRec) : (s.withExtent h r).uvu = s.uvu := rfl
@[simp] theorem State.withExtent_cju (h : Nat) (r : ExtentRec) : (s.withExtent h r).cju = s.cju := rfl
@[simp] theorem State.withExtent_odu (h : Nat) (r : ExtentRec) : (s.withExtent h r).odu = s.odu := rfl
@[simp] theorem State.withExtent_staging (h : Nat) (r : ExtentRec) : (s.withExtent h r).staging = s.staging := rfl
@[simp] theorem State.withExtent_host (h : Nat) (r : ExtentRec) : (s.withExtent h r).host = s.host := rfl
@[simp] theorem State.withExtent_pending (h : Nat) (r : ExtentRec) : (s.withExtent h r).pending = s.pending := rfl

@[simp] theorem State.dropExtent_stc (h : Nat) : (s.dropExtent h).stc = s.stc := rfl
@[simp] theorem State.dropExtent_cqp (h : Nat) : (s.dropExtent h).cqp = s.cqp := rfl
@[simp] theorem State.dropExtent_qsu (h : Nat) : (s.dropExtent h).qsu = s.qsu := rfl
@[simp] theorem State.dropExtent_scu (h : Nat) : (s.dropExtent h).scu = s.scu := rfl
@[simp] theorem State.dropExtent_rcu (h : Nat) : (s.dropExtent h).rcu = s.rcu := rfl
@[simp] theorem State.dropExtent_psi (h : Nat) : (s.dropExtent h).psi = s.psi := rfl
@[simp] theorem State.dropExtent_uvu (h : Nat) : (s.dropExtent h).uvu = s.uvu := rfl
@[simp] theorem State.dropExtent_cju (h : Nat) : (s.dropExtent h).cju = s.cju := rfl
@[simp] theorem State.dropExtent_odu (h : Nat) : (s.dropExtent h).odu = s.odu := rfl
@[simp] theorem State.dropExtent_staging (h : Nat) : (s.dropExtent h).staging = s.staging := rfl
@[simp] theorem State.dropExtent_host (h : Nat) : (s.dropExtent h).host = s.host := rfl
@[simp] theorem State.dropExtent_pending (h : Nat) : (s.dropExtent h).pending = s.pending := rfl

@[simp] theorem State.claim_stc (c : Claimant) (h : Nat) : (s.claim c h).stc = s.stc := rfl
@[simp] theorem State.claim_cqp (c : Claimant) (h : Nat) : (s.claim c h).cqp = s.cqp := rfl
@[simp] theorem State.claim_qsu (c : Claimant) (h : Nat) : (s.claim c h).qsu = s.qsu := rfl
@[simp] theorem State.claim_scu (c : Claimant) (h : Nat) : (s.claim c h).scu = s.scu := rfl
@[simp] theorem State.claim_rcu (c : Claimant) (h : Nat) : (s.claim c h).rcu = s.rcu := rfl
@[simp] theorem State.claim_psi (c : Claimant) (h : Nat) : (s.claim c h).psi = s.psi := rfl
@[simp] theorem State.claim_uvu (c : Claimant) (h : Nat) : (s.claim c h).uvu = s.uvu := rfl
@[simp] theorem State.claim_cju (c : Claimant) (h : Nat) : (s.claim c h).cju = s.cju := rfl
@[simp] theorem State.claim_odu (c : Claimant) (h : Nat) : (s.claim c h).odu = s.odu := rfl
@[simp] theorem State.claim_staging (c : Claimant) (h : Nat) : (s.claim c h).staging = s.staging := rfl
@[simp] theorem State.claim_host (c : Claimant) (h : Nat) : (s.claim c h).host = s.host := rfl
@[simp] theorem State.claim_pending (c : Claimant) (h : Nat) : (s.claim c h).pending = s.pending := rfl

@[simp] theorem State.unclaim_stc (h : Nat) : (s.unclaim h).stc = s.stc := rfl
@[simp] theorem State.unclaim_cqp (h : Nat) : (s.unclaim h).cqp = s.cqp := rfl
@[simp] theorem State.unclaim_qsu (h : Nat) : (s.unclaim h).qsu = s.qsu := rfl
@[simp] theorem State.unclaim_scu (h : Nat) : (s.unclaim h).scu = s.scu := rfl
@[simp] theorem State.unclaim_rcu (h : Nat) : (s.unclaim h).rcu = s.rcu := rfl
@[simp] theorem State.unclaim_psi (h : Nat) : (s.unclaim h).psi = s.psi := rfl
@[simp] theorem State.unclaim_uvu (h : Nat) : (s.unclaim h).uvu = s.uvu := rfl
@[simp] theorem State.unclaim_cju (h : Nat) : (s.unclaim h).cju = s.cju := rfl
@[simp] theorem State.unclaim_odu (h : Nat) : (s.unclaim h).odu = s.odu := rfl
@[simp] theorem State.unclaim_staging (h : Nat) : (s.unclaim h).staging = s.staging := rfl
@[simp] theorem State.unclaim_host (h : Nat) : (s.unclaim h).host = s.host := rfl
@[simp] theorem State.unclaim_pending (h : Nat) : (s.unclaim h).pending = s.pending := rfl

@[simp] theorem State.withSweep_stc (w : Sweep) : (s.withSweep w).stc = s.stc := rfl
@[simp] theorem State.withSweep_cqp (w : Sweep) : (s.withSweep w).cqp = s.cqp := rfl
@[simp] theorem State.withSweep_qsu (w : Sweep) : (s.withSweep w).qsu = s.qsu := rfl
@[simp] theorem State.withSweep_scu (w : Sweep) : (s.withSweep w).scu = s.scu := rfl
@[simp] theorem State.withSweep_rcu (w : Sweep) : (s.withSweep w).rcu = s.rcu := rfl
@[simp] theorem State.withSweep_psi (w : Sweep) : (s.withSweep w).psi = s.psi := rfl
@[simp] theorem State.withSweep_uvu (w : Sweep) : (s.withSweep w).uvu = s.uvu := rfl
@[simp] theorem State.withSweep_cju (w : Sweep) : (s.withSweep w).cju = s.cju := rfl
@[simp] theorem State.withSweep_odu (w : Sweep) : (s.withSweep w).odu = s.odu := rfl
@[simp] theorem State.withSweep_staging (w : Sweep) : (s.withSweep w).staging = s.staging := rfl
@[simp] theorem State.withSweep_host (w : Sweep) : (s.withSweep w).host = s.host := rfl
@[simp] theorem State.withSweep_pending (w : Sweep) : (s.withSweep w).pending = s.pending := rfl

@[simp] theorem State.leaveHeld_stc (h : Nat) : (s.leaveHeld h).stc = s.stc := rfl
@[simp] theorem State.leaveHeld_cqp (h : Nat) : (s.leaveHeld h).cqp = s.cqp := rfl
@[simp] theorem State.leaveHeld_qsu (h : Nat) : (s.leaveHeld h).qsu = s.qsu := rfl
@[simp] theorem State.leaveHeld_scu (h : Nat) : (s.leaveHeld h).scu = s.scu := rfl
@[simp] theorem State.leaveHeld_rcu (h : Nat) : (s.leaveHeld h).rcu = s.rcu := rfl
@[simp] theorem State.leaveHeld_psi (h : Nat) : (s.leaveHeld h).psi = s.psi := rfl
@[simp] theorem State.leaveHeld_uvu (h : Nat) : (s.leaveHeld h).uvu = s.uvu := rfl
@[simp] theorem State.leaveHeld_cju (h : Nat) : (s.leaveHeld h).cju = s.cju := rfl
@[simp] theorem State.leaveHeld_odu (h : Nat) : (s.leaveHeld h).odu = s.odu := rfl
@[simp] theorem State.leaveHeld_staging (h : Nat) : (s.leaveHeld h).staging = s.staging := rfl
@[simp] theorem State.leaveHeld_host (h : Nat) : (s.leaveHeld h).host = s.host := rfl
@[simp] theorem State.leaveHeld_pending (h : Nat) : (s.leaveHeld h).pending = s.pending := rfl

@[simp] theorem State.joinOpen_stc (h l b : Nat) : (s.joinOpen h l b).stc = s.stc := rfl
@[simp] theorem State.joinOpen_cqp (h l b : Nat) : (s.joinOpen h l b).cqp = s.cqp := rfl
@[simp] theorem State.joinOpen_qsu (h l b : Nat) : (s.joinOpen h l b).qsu = s.qsu := rfl
@[simp] theorem State.joinOpen_xtu (h l b : Nat) : (s.joinOpen h l b).xtu = s.xtu := rfl
@[simp] theorem State.joinOpen_scu (h l b : Nat) : (s.joinOpen h l b).scu = s.scu := rfl
@[simp] theorem State.joinOpen_rcu (h l b : Nat) : (s.joinOpen h l b).rcu = s.rcu := rfl
@[simp] theorem State.joinOpen_psi (h l b : Nat) : (s.joinOpen h l b).psi = s.psi := rfl
@[simp] theorem State.joinOpen_uvu (h l b : Nat) : (s.joinOpen h l b).uvu = s.uvu := rfl
@[simp] theorem State.joinOpen_odu (h l b : Nat) : (s.joinOpen h l b).odu = s.odu := rfl
@[simp] theorem State.joinOpen_staging (h l b : Nat) : (s.joinOpen h l b).staging = s.staging := rfl
@[simp] theorem State.joinOpen_host (h l b : Nat) : (s.joinOpen h l b).host = s.host := rfl
@[simp] theorem State.joinOpen_pending (h l b : Nat) : (s.joinOpen h l b).pending = s.pending := rfl

@[simp] theorem State.leaveOpen_stc (h : Nat) : (s.leaveOpen h).stc = s.stc := rfl
@[simp] theorem State.leaveOpen_cqp (h : Nat) : (s.leaveOpen h).cqp = s.cqp := rfl
@[simp] theorem State.leaveOpen_qsu (h : Nat) : (s.leaveOpen h).qsu = s.qsu := rfl
@[simp] theorem State.leaveOpen_xtu (h : Nat) : (s.leaveOpen h).xtu = s.xtu := rfl
@[simp] theorem State.leaveOpen_scu (h : Nat) : (s.leaveOpen h).scu = s.scu := rfl
@[simp] theorem State.leaveOpen_rcu (h : Nat) : (s.leaveOpen h).rcu = s.rcu := rfl
@[simp] theorem State.leaveOpen_psi (h : Nat) : (s.leaveOpen h).psi = s.psi := rfl
@[simp] theorem State.leaveOpen_uvu (h : Nat) : (s.leaveOpen h).uvu = s.uvu := rfl
@[simp] theorem State.leaveOpen_odu (h : Nat) : (s.leaveOpen h).odu = s.odu := rfl
@[simp] theorem State.leaveOpen_staging (h : Nat) : (s.leaveOpen h).staging = s.staging := rfl
@[simp] theorem State.leaveOpen_host (h : Nat) : (s.leaveOpen h).host = s.host := rfl
@[simp] theorem State.leaveOpen_pending (h : Nat) : (s.leaveOpen h).pending = s.pending := rfl

@[simp] theorem State.withFrozen_stc (f : List FrozenEntry) : (s.withFrozen f).stc = s.stc := rfl
@[simp] theorem State.withFrozen_cqp (f : List FrozenEntry) : (s.withFrozen f).cqp = s.cqp := rfl
@[simp] theorem State.withFrozen_qsu (f : List FrozenEntry) : (s.withFrozen f).qsu = s.qsu := rfl
@[simp] theorem State.withFrozen_xtu (f : List FrozenEntry) : (s.withFrozen f).xtu = s.xtu := rfl
@[simp] theorem State.withFrozen_scu (f : List FrozenEntry) : (s.withFrozen f).scu = s.scu := rfl
@[simp] theorem State.withFrozen_rcu (f : List FrozenEntry) : (s.withFrozen f).rcu = s.rcu := rfl
@[simp] theorem State.withFrozen_psi (f : List FrozenEntry) : (s.withFrozen f).psi = s.psi := rfl
@[simp] theorem State.withFrozen_uvu (f : List FrozenEntry) : (s.withFrozen f).uvu = s.uvu := rfl
@[simp] theorem State.withFrozen_odu (f : List FrozenEntry) : (s.withFrozen f).odu = s.odu := rfl
@[simp] theorem State.withFrozen_staging (f : List FrozenEntry) : (s.withFrozen f).staging = s.staging := rfl
@[simp] theorem State.withFrozen_host (f : List FrozenEntry) : (s.withFrozen f).host = s.host := rfl
@[simp] theorem State.withFrozen_pending (f : List FrozenEntry) : (s.withFrozen f).pending = s.pending := rfl

@[simp] theorem State.editFrozen_stc (h : Nat) (f : FrozenEntry → FrozenEntry) : (s.editFrozen h f).stc = s.stc := rfl
@[simp] theorem State.editFrozen_cqp (h : Nat) (f : FrozenEntry → FrozenEntry) : (s.editFrozen h f).cqp = s.cqp := rfl
@[simp] theorem State.editFrozen_qsu (h : Nat) (f : FrozenEntry → FrozenEntry) : (s.editFrozen h f).qsu = s.qsu := rfl
@[simp] theorem State.editFrozen_xtu (h : Nat) (f : FrozenEntry → FrozenEntry) : (s.editFrozen h f).xtu = s.xtu := rfl
@[simp] theorem State.editFrozen_scu (h : Nat) (f : FrozenEntry → FrozenEntry) : (s.editFrozen h f).scu = s.scu := rfl
@[simp] theorem State.editFrozen_rcu (h : Nat) (f : FrozenEntry → FrozenEntry) : (s.editFrozen h f).rcu = s.rcu := rfl
@[simp] theorem State.editFrozen_psi (h : Nat) (f : FrozenEntry → FrozenEntry) : (s.editFrozen h f).psi = s.psi := rfl
@[simp] theorem State.editFrozen_uvu (h : Nat) (f : FrozenEntry → FrozenEntry) : (s.editFrozen h f).uvu = s.uvu := rfl
@[simp] theorem State.editFrozen_odu (h : Nat) (f : FrozenEntry → FrozenEntry) : (s.editFrozen h f).odu = s.odu := rfl
@[simp] theorem State.editFrozen_staging (h : Nat) (f : FrozenEntry → FrozenEntry) : (s.editFrozen h f).staging = s.staging := rfl
@[simp] theorem State.editFrozen_host (h : Nat) (f : FrozenEntry → FrozenEntry) : (s.editFrozen h f).host = s.host := rfl
@[simp] theorem State.editFrozen_pending (h : Nat) (f : FrozenEntry → FrozenEntry) : (s.editFrozen h f).pending = s.pending := rfl

@[simp] theorem State.stepWrite_stc (h : Nat) (st : CopyStep) : (s.stepWrite h st).stc = s.stc := rfl
@[simp] theorem State.stepWrite_cqp (h : Nat) (st : CopyStep) : (s.stepWrite h st).cqp = s.cqp := rfl
@[simp] theorem State.stepWrite_qsu (h : Nat) (st : CopyStep) : (s.stepWrite h st).qsu = s.qsu := rfl
@[simp] theorem State.stepWrite_xtu (h : Nat) (st : CopyStep) : (s.stepWrite h st).xtu = s.xtu := rfl
@[simp] theorem State.stepWrite_scu (h : Nat) (st : CopyStep) : (s.stepWrite h st).scu = s.scu := rfl
@[simp] theorem State.stepWrite_rcu (h : Nat) (st : CopyStep) : (s.stepWrite h st).rcu = s.rcu := rfl
@[simp] theorem State.stepWrite_psi (h : Nat) (st : CopyStep) : (s.stepWrite h st).psi = s.psi := rfl
@[simp] theorem State.stepWrite_uvu (h : Nat) (st : CopyStep) : (s.stepWrite h st).uvu = s.uvu := rfl
@[simp] theorem State.stepWrite_odu (h : Nat) (st : CopyStep) : (s.stepWrite h st).odu = s.odu := rfl
@[simp] theorem State.stepWrite_staging (h : Nat) (st : CopyStep) : (s.stepWrite h st).staging = s.staging := rfl
@[simp] theorem State.stepWrite_host (h : Nat) (st : CopyStep) : (s.stepWrite h st).host = s.host := rfl
@[simp] theorem State.stepWrite_pending (h : Nat) (st : CopyStep) : (s.stepWrite h st).pending = s.pending := rfl

@[simp] theorem State.revert_stc (h : Nat) : (s.revert h).stc = s.stc := rfl
@[simp] theorem State.revert_cqp (h : Nat) : (s.revert h).cqp = s.cqp := rfl
@[simp] theorem State.revert_qsu (h : Nat) : (s.revert h).qsu = s.qsu := rfl
@[simp] theorem State.revert_xtu (h : Nat) : (s.revert h).xtu = s.xtu := rfl
@[simp] theorem State.revert_scu (h : Nat) : (s.revert h).scu = s.scu := rfl
@[simp] theorem State.revert_rcu (h : Nat) : (s.revert h).rcu = s.rcu := rfl
@[simp] theorem State.revert_psi (h : Nat) : (s.revert h).psi = s.psi := rfl
@[simp] theorem State.revert_uvu (h : Nat) : (s.revert h).uvu = s.uvu := rfl
@[simp] theorem State.revert_odu (h : Nat) : (s.revert h).odu = s.odu := rfl
@[simp] theorem State.revert_staging (h : Nat) : (s.revert h).staging = s.staging := rfl
@[simp] theorem State.revert_host (h : Nat) : (s.revert h).host = s.host := rfl
@[simp] theorem State.revert_pending (h : Nat) : (s.revert h).pending = s.pending := rfl

@[simp] theorem State.settleNight_stc : (s.settleNight).stc = s.stc := by
  unfold State.settleNight; split <;> rfl
@[simp] theorem State.settleNight_qsu : (s.settleNight).qsu = s.qsu := by
  unfold State.settleNight; split <;> rfl
@[simp] theorem State.settleNight_xtu : (s.settleNight).xtu = s.xtu := by
  unfold State.settleNight; split <;> rfl
@[simp] theorem State.settleNight_scu : (s.settleNight).scu = s.scu := by
  unfold State.settleNight; split <;> rfl
@[simp] theorem State.settleNight_rcu : (s.settleNight).rcu = s.rcu := by
  unfold State.settleNight; split <;> rfl
@[simp] theorem State.settleNight_psi : (s.settleNight).psi = s.psi := by
  unfold State.settleNight; split <;> rfl
@[simp] theorem State.settleNight_uvu : (s.settleNight).uvu = s.uvu := by
  unfold State.settleNight; split <;> rfl
@[simp] theorem State.settleNight_odu : (s.settleNight).odu = s.odu := by
  unfold State.settleNight; split <;> rfl
@[simp] theorem State.settleNight_staging : (s.settleNight).staging = s.staging := by
  unfold State.settleNight; split <;> rfl
@[simp] theorem State.settleNight_host : (s.settleNight).host = s.host := by
  unfold State.settleNight; split <;> rfl
@[simp] theorem State.settleNight_pending : (s.settleNight).pending = s.pending := by
  unfold State.settleNight; split <;> rfl

/-- A settled night joins the units that wait with a notice, and changes nothing else of the port. -/
theorem State.settleNight_cqp : s.settleNight.cqp = { s.cqp with waiting := s.settleNight.cqp.waiting } := by
  unfold State.settleNight; split <;> rfl

@[simp] theorem State.await_cqp (u : NoticeUnit) : (s.await u).cqp = { s.cqp with
    waiting := if s.noticeOrder.contains u then s.noticeOrder else s.noticeOrder ++ [u] } := rfl
@[simp] theorem State.await_stc (u : NoticeUnit) : (s.await u).stc = s.stc := rfl
@[simp] theorem State.await_qsu (u : NoticeUnit) : (s.await u).qsu = s.qsu := rfl
@[simp] theorem State.await_xtu (u : NoticeUnit) : (s.await u).xtu = s.xtu := rfl
@[simp] theorem State.await_scu (u : NoticeUnit) : (s.await u).scu = s.scu := rfl
@[simp] theorem State.await_rcu (u : NoticeUnit) : (s.await u).rcu = s.rcu := rfl
@[simp] theorem State.await_psi (u : NoticeUnit) : (s.await u).psi = s.psi := rfl
@[simp] theorem State.await_uvu (u : NoticeUnit) : (s.await u).uvu = s.uvu := rfl
@[simp] theorem State.await_cju (u : NoticeUnit) : (s.await u).cju = s.cju := rfl
@[simp] theorem State.await_odu (u : NoticeUnit) : (s.await u).odu = s.odu := rfl
@[simp] theorem State.await_staging (u : NoticeUnit) : (s.await u).staging = s.staging := rfl
@[simp] theorem State.await_host (u : NoticeUnit) : (s.await u).host = s.host := rfl
@[simp] theorem State.await_pending (u : NoticeUnit) : (s.await u).pending = s.pending := rfl

@[simp] theorem Cqp.leaveTurn_base (c : Cqp) (u : NoticeUnit) : (c.leaveTurn u).base = c.base := rfl
@[simp] theorem Cqp.leaveTurn_ringU (c : Cqp) (u : NoticeUnit) : (c.leaveTurn u).ringU = c.ringU := rfl
@[simp] theorem Cqp.leaveTurn_ringB (c : Cqp) (u : NoticeUnit) : (c.leaveTurn u).ringB = c.ringB := rfl
@[simp] theorem Cqp.leaveTurn_write (c : Cqp) (u : NoticeUnit) : (c.leaveTurn u).write = c.write := rfl
@[simp] theorem Cqp.leaveTurn_lastConsumer (c : Cqp) (u : NoticeUnit) : (c.leaveTurn u).lastConsumer = c.lastConsumer := rfl
@[simp] theorem Cqp.leaveTurn_consecutiveU (c : Cqp) (u : NoticeUnit) : (c.leaveTurn u).consecutiveU = c.consecutiveU := rfl
@[simp] theorem Cqp.leaveTurn_rotation (c : Cqp) (u : NoticeUnit) : (c.leaveTurn u).rotation = c.rotation := rfl
@[simp] theorem Cqp.leaveTurn_notices (c : Cqp) (u : NoticeUnit) : (c.leaveTurn u).notices = c.notices := rfl
@[simp] theorem Cqp.leaveTurn_noticeCount (c : Cqp) (u : NoticeUnit) : (c.leaveTurn u).noticeCount = c.noticeCount := rfl
@[simp] theorem Cqp.leaveTurn_pollTimer (c : Cqp) (u : NoticeUnit) : (c.leaveTurn u).pollTimer = c.pollTimer := rfl
@[simp] theorem Cqp.leaveTurn_roomWait (c : Cqp) (u : NoticeUnit) : (c.leaveTurn u).roomWait = c.roomWait := rfl
@[simp] theorem Cqp.leaveTurn_causes (c : Cqp) (u : NoticeUnit) : (c.leaveTurn u).causes = c.causes := rfl
@[simp] theorem Cqp.leaveTurn_posted (c : Cqp) (u : NoticeUnit) : (c.leaveTurn u).posted = c.posted := rfl
@[simp] theorem Cqp.leaveTurn_recordNumber (c : Cqp) (u : NoticeUnit) : (c.leaveTurn u).recordNumber = c.recordNumber := rfl
@[simp] theorem Cqp.leaveTurn_waiting (c : Cqp) (u : NoticeUnit) :
    (c.leaveTurn u).waiting = c.waiting.filter fun v => decide (v ≠ u) := rfl

@[simp] theorem State.withCatalogue_stc (c : List SnapRec) : (s.withCatalogue c).stc = s.stc := rfl
@[simp] theorem State.withCatalogue_cqp (c : List SnapRec) : (s.withCatalogue c).cqp = s.cqp := rfl
@[simp] theorem State.withCatalogue_qsu (c : List SnapRec) : (s.withCatalogue c).qsu = s.qsu := rfl
@[simp] theorem State.withCatalogue_xtu (c : List SnapRec) : (s.withCatalogue c).xtu = s.xtu := rfl
@[simp] theorem State.withCatalogue_rcu (c : List SnapRec) : (s.withCatalogue c).rcu = s.rcu := rfl
@[simp] theorem State.withCatalogue_psi (c : List SnapRec) : (s.withCatalogue c).psi = s.psi := rfl
@[simp] theorem State.withCatalogue_uvu (c : List SnapRec) : (s.withCatalogue c).uvu = s.uvu := rfl
@[simp] theorem State.withCatalogue_cju (c : List SnapRec) : (s.withCatalogue c).cju = s.cju := rfl
@[simp] theorem State.withCatalogue_odu (c : List SnapRec) : (s.withCatalogue c).odu = s.odu := rfl
@[simp] theorem State.withCatalogue_staging (c : List SnapRec) : (s.withCatalogue c).staging = s.staging := rfl
@[simp] theorem State.withCatalogue_host (c : List SnapRec) : (s.withCatalogue c).host = s.host := rfl
@[simp] theorem State.withCatalogue_pending (c : List SnapRec) : (s.withCatalogue c).pending = s.pending := rfl

@[simp] theorem State.editSnapshot_stc (e : Nat) (f : SnapRec → SnapRec) : (s.editSnapshot e f).stc = s.stc := rfl
@[simp] theorem State.editSnapshot_cqp (e : Nat) (f : SnapRec → SnapRec) : (s.editSnapshot e f).cqp = s.cqp := rfl
@[simp] theorem State.editSnapshot_qsu (e : Nat) (f : SnapRec → SnapRec) : (s.editSnapshot e f).qsu = s.qsu := rfl
@[simp] theorem State.editSnapshot_xtu (e : Nat) (f : SnapRec → SnapRec) : (s.editSnapshot e f).xtu = s.xtu := rfl
@[simp] theorem State.editSnapshot_rcu (e : Nat) (f : SnapRec → SnapRec) : (s.editSnapshot e f).rcu = s.rcu := rfl
@[simp] theorem State.editSnapshot_psi (e : Nat) (f : SnapRec → SnapRec) : (s.editSnapshot e f).psi = s.psi := rfl
@[simp] theorem State.editSnapshot_uvu (e : Nat) (f : SnapRec → SnapRec) : (s.editSnapshot e f).uvu = s.uvu := rfl
@[simp] theorem State.editSnapshot_cju (e : Nat) (f : SnapRec → SnapRec) : (s.editSnapshot e f).cju = s.cju := rfl
@[simp] theorem State.editSnapshot_odu (e : Nat) (f : SnapRec → SnapRec) : (s.editSnapshot e f).odu = s.odu := rfl
@[simp] theorem State.editSnapshot_staging (e : Nat) (f : SnapRec → SnapRec) : (s.editSnapshot e f).staging = s.staging := rfl
@[simp] theorem State.editSnapshot_host (e : Nat) (f : SnapRec → SnapRec) : (s.editSnapshot e f).host = s.host := rfl
@[simp] theorem State.editSnapshot_pending (e : Nat) (f : SnapRec → SnapRec) : (s.editSnapshot e f).pending = s.pending := rfl

@[simp] theorem State.makeRecord_stc (e : Nat) (o : Origin) (r g : Nat) : (s.makeRecord e o r g).stc = s.stc := rfl
@[simp] theorem State.makeRecord_cqp (e : Nat) (o : Origin) (r g : Nat) : (s.makeRecord e o r g).cqp = s.cqp := rfl
@[simp] theorem State.makeRecord_qsu (e : Nat) (o : Origin) (r g : Nat) : (s.makeRecord e o r g).qsu = s.qsu := rfl
@[simp] theorem State.makeRecord_xtu (e : Nat) (o : Origin) (r g : Nat) : (s.makeRecord e o r g).xtu = s.xtu := rfl
@[simp] theorem State.makeRecord_rcu (e : Nat) (o : Origin) (r g : Nat) : (s.makeRecord e o r g).rcu = s.rcu := rfl
@[simp] theorem State.makeRecord_psi (e : Nat) (o : Origin) (r g : Nat) : (s.makeRecord e o r g).psi = s.psi := rfl
@[simp] theorem State.makeRecord_uvu (e : Nat) (o : Origin) (r g : Nat) : (s.makeRecord e o r g).uvu = s.uvu := rfl
@[simp] theorem State.makeRecord_cju (e : Nat) (o : Origin) (r g : Nat) : (s.makeRecord e o r g).cju = s.cju := rfl
@[simp] theorem State.makeRecord_odu (e : Nat) (o : Origin) (r g : Nat) : (s.makeRecord e o r g).odu = s.odu := rfl
@[simp] theorem State.makeRecord_staging (e : Nat) (o : Origin) (r g : Nat) : (s.makeRecord e o r g).staging = s.staging := rfl
@[simp] theorem State.makeRecord_host (e : Nat) (o : Origin) (r g : Nat) : (s.makeRecord e o r g).host = s.host := rfl
@[simp] theorem State.makeRecord_pending (e : Nat) (o : Origin) (r g : Nat) : (s.makeRecord e o r g).pending = s.pending := rfl

@[simp] theorem State.hearEpoch_stc (e : Nat) : (s.hearEpoch e).stc = s.stc := rfl
@[simp] theorem State.hearEpoch_cqp (e : Nat) : (s.hearEpoch e).cqp = s.cqp := rfl
@[simp] theorem State.hearEpoch_qsu (e : Nat) : (s.hearEpoch e).qsu = s.qsu := rfl
@[simp] theorem State.hearEpoch_xtu (e : Nat) : (s.hearEpoch e).xtu = s.xtu := rfl
@[simp] theorem State.hearEpoch_rcu (e : Nat) : (s.hearEpoch e).rcu = s.rcu := rfl
@[simp] theorem State.hearEpoch_psi (e : Nat) : (s.hearEpoch e).psi = s.psi := rfl
@[simp] theorem State.hearEpoch_uvu (e : Nat) : (s.hearEpoch e).uvu = s.uvu := rfl
@[simp] theorem State.hearEpoch_cju (e : Nat) : (s.hearEpoch e).cju = s.cju := rfl
@[simp] theorem State.hearEpoch_odu (e : Nat) : (s.hearEpoch e).odu = s.odu := rfl
@[simp] theorem State.hearEpoch_staging (e : Nat) : (s.hearEpoch e).staging = s.staging := rfl
@[simp] theorem State.hearEpoch_host (e : Nat) : (s.hearEpoch e).host = s.host := rfl
@[simp] theorem State.hearEpoch_pending (e : Nat) : (s.hearEpoch e).pending = s.pending := rfl

@[simp] theorem State.holdSnapcall_stc (e : Nat) (k : CallKind) : (s.holdSnapcall e k).stc = s.stc := rfl
@[simp] theorem State.holdSnapcall_cqp (e : Nat) (k : CallKind) : (s.holdSnapcall e k).cqp = s.cqp := rfl
@[simp] theorem State.holdSnapcall_qsu (e : Nat) (k : CallKind) : (s.holdSnapcall e k).qsu = s.qsu := rfl
@[simp] theorem State.holdSnapcall_xtu (e : Nat) (k : CallKind) : (s.holdSnapcall e k).xtu = s.xtu := rfl
@[simp] theorem State.holdSnapcall_scu (e : Nat) (k : CallKind) : (s.holdSnapcall e k).scu = s.scu := rfl
@[simp] theorem State.holdSnapcall_rcu (e : Nat) (k : CallKind) : (s.holdSnapcall e k).rcu = s.rcu := rfl
@[simp] theorem State.holdSnapcall_uvu (e : Nat) (k : CallKind) : (s.holdSnapcall e k).uvu = s.uvu := rfl
@[simp] theorem State.holdSnapcall_cju (e : Nat) (k : CallKind) : (s.holdSnapcall e k).cju = s.cju := rfl
@[simp] theorem State.holdSnapcall_odu (e : Nat) (k : CallKind) : (s.holdSnapcall e k).odu = s.odu := rfl
@[simp] theorem State.holdSnapcall_staging (e : Nat) (k : CallKind) : (s.holdSnapcall e k).staging = s.staging := rfl
@[simp] theorem State.holdSnapcall_host (e : Nat) (k : CallKind) : (s.holdSnapcall e k).host = s.host := rfl
@[simp] theorem State.holdSnapcall_pending (e : Nat) (k : CallKind) : (s.holdSnapcall e k).pending = s.pending := rfl

@[simp] theorem State.withPeer_stc (p : Nat) (x : Peer) : (s.withPeer p x).stc = s.stc := rfl
@[simp] theorem State.withPeer_cqp (p : Nat) (x : Peer) : (s.withPeer p x).cqp = s.cqp := rfl
@[simp] theorem State.withPeer_qsu (p : Nat) (x : Peer) : (s.withPeer p x).qsu = s.qsu := rfl
@[simp] theorem State.withPeer_xtu (p : Nat) (x : Peer) : (s.withPeer p x).xtu = s.xtu := rfl
@[simp] theorem State.withPeer_scu (p : Nat) (x : Peer) : (s.withPeer p x).scu = s.scu := rfl
@[simp] theorem State.withPeer_rcu (p : Nat) (x : Peer) : (s.withPeer p x).rcu = s.rcu := rfl
@[simp] theorem State.withPeer_uvu (p : Nat) (x : Peer) : (s.withPeer p x).uvu = s.uvu := rfl
@[simp] theorem State.withPeer_cju (p : Nat) (x : Peer) : (s.withPeer p x).cju = s.cju := rfl
@[simp] theorem State.withPeer_odu (p : Nat) (x : Peer) : (s.withPeer p x).odu = s.odu := rfl
@[simp] theorem State.withPeer_staging (p : Nat) (x : Peer) : (s.withPeer p x).staging = s.staging := rfl
@[simp] theorem State.withPeer_host (p : Nat) (x : Peer) : (s.withPeer p x).host = s.host := rfl
@[simp] theorem State.withPeer_pending (p : Nat) (x : Peer) : (s.withPeer p x).pending = s.pending := rfl

@[simp] theorem State.requestAll_stc (p : Nat) : (s.requestAll p).stc = s.stc := rfl
@[simp] theorem State.requestAll_cqp (p : Nat) : (s.requestAll p).cqp = s.cqp := rfl
@[simp] theorem State.requestAll_qsu (p : Nat) : (s.requestAll p).qsu = s.qsu := rfl
@[simp] theorem State.requestAll_xtu (p : Nat) : (s.requestAll p).xtu = s.xtu := rfl
@[simp] theorem State.requestAll_scu (p : Nat) : (s.requestAll p).scu = s.scu := rfl
@[simp] theorem State.requestAll_rcu (p : Nat) : (s.requestAll p).rcu = s.rcu := rfl
@[simp] theorem State.requestAll_psi (p : Nat) : (s.requestAll p).psi = s.psi := rfl
@[simp] theorem State.requestAll_cju (p : Nat) : (s.requestAll p).cju = s.cju := rfl
@[simp] theorem State.requestAll_odu (p : Nat) : (s.requestAll p).odu = s.odu := rfl
@[simp] theorem State.requestAll_staging (p : Nat) : (s.requestAll p).staging = s.staging := rfl
@[simp] theorem State.requestAll_host (p : Nat) : (s.requestAll p).host = s.host := rfl
@[simp] theorem State.requestAll_pending (p : Nat) : (s.requestAll p).pending = s.pending := rfl

@[simp] theorem State.requestStale_stc (p t : Nat) : (s.requestStale p t).stc = s.stc := rfl
@[simp] theorem State.requestStale_cqp (p t : Nat) : (s.requestStale p t).cqp = s.cqp := rfl
@[simp] theorem State.requestStale_qsu (p t : Nat) : (s.requestStale p t).qsu = s.qsu := rfl
@[simp] theorem State.requestStale_xtu (p t : Nat) : (s.requestStale p t).xtu = s.xtu := rfl
@[simp] theorem State.requestStale_scu (p t : Nat) : (s.requestStale p t).scu = s.scu := rfl
@[simp] theorem State.requestStale_rcu (p t : Nat) : (s.requestStale p t).rcu = s.rcu := rfl
@[simp] theorem State.requestStale_psi (p t : Nat) : (s.requestStale p t).psi = s.psi := rfl
@[simp] theorem State.requestStale_cju (p t : Nat) : (s.requestStale p t).cju = s.cju := rfl
@[simp] theorem State.requestStale_odu (p t : Nat) : (s.requestStale p t).odu = s.odu := rfl
@[simp] theorem State.requestStale_staging (p t : Nat) : (s.requestStale p t).staging = s.staging := rfl
@[simp] theorem State.requestStale_host (p t : Nat) : (s.requestStale p t).host = s.host := rfl
@[simp] theorem State.requestStale_pending (p t : Nat) : (s.requestStale p t).pending = s.pending := rfl

@[simp] theorem State.withPool_stc (n : Nat) (b : Bool) : (s.withPool n b).stc = s.stc := rfl
@[simp] theorem State.withPool_cqp (n : Nat) (b : Bool) : (s.withPool n b).cqp = s.cqp := rfl
@[simp] theorem State.withPool_qsu (n : Nat) (b : Bool) : (s.withPool n b).qsu = s.qsu := rfl
@[simp] theorem State.withPool_xtu (n : Nat) (b : Bool) : (s.withPool n b).xtu = s.xtu := rfl
@[simp] theorem State.withPool_scu (n : Nat) (b : Bool) : (s.withPool n b).scu = s.scu := rfl
@[simp] theorem State.withPool_rcu (n : Nat) (b : Bool) : (s.withPool n b).rcu = s.rcu := rfl
@[simp] theorem State.withPool_psi (n : Nat) (b : Bool) : (s.withPool n b).psi = s.psi := rfl
@[simp] theorem State.withPool_cju (n : Nat) (b : Bool) : (s.withPool n b).cju = s.cju := rfl
@[simp] theorem State.withPool_odu (n : Nat) (b : Bool) : (s.withPool n b).odu = s.odu := rfl
@[simp] theorem State.withPool_staging (n : Nat) (b : Bool) : (s.withPool n b).staging = s.staging := rfl
@[simp] theorem State.withPool_host (n : Nat) (b : Bool) : (s.withPool n b).host = s.host := rfl
@[simp] theorem State.withPool_pending (n : Nat) (b : Bool) : (s.withPool n b).pending = s.pending := rfl

@[simp] theorem State.withContext_stc (i : Nat) (c : Context) : (s.withContext i c).stc = s.stc := rfl
@[simp] theorem State.withContext_cqp (i : Nat) (c : Context) : (s.withContext i c).cqp = s.cqp := rfl
@[simp] theorem State.withContext_qsu (i : Nat) (c : Context) : (s.withContext i c).qsu = s.qsu := rfl
@[simp] theorem State.withContext_xtu (i : Nat) (c : Context) : (s.withContext i c).xtu = s.xtu := rfl
@[simp] theorem State.withContext_scu (i : Nat) (c : Context) : (s.withContext i c).scu = s.scu := rfl
@[simp] theorem State.withContext_psi (i : Nat) (c : Context) : (s.withContext i c).psi = s.psi := rfl
@[simp] theorem State.withContext_uvu (i : Nat) (c : Context) : (s.withContext i c).uvu = s.uvu := rfl
@[simp] theorem State.withContext_cju (i : Nat) (c : Context) : (s.withContext i c).cju = s.cju := rfl
@[simp] theorem State.withContext_odu (i : Nat) (c : Context) : (s.withContext i c).odu = s.odu := rfl
@[simp] theorem State.withContext_staging (i : Nat) (c : Context) : (s.withContext i c).staging = s.staging := rfl
@[simp] theorem State.withContext_host (i : Nat) (c : Context) : (s.withContext i c).host = s.host := rfl
@[simp] theorem State.withContext_pending (i : Nat) (c : Context) : (s.withContext i c).pending = s.pending := rfl

@[simp] theorem State.restartDeadline_stc (i : Nat) : (s.restartDeadline i).stc = s.stc := rfl
@[simp] theorem State.restartDeadline_cqp (i : Nat) : (s.restartDeadline i).cqp = s.cqp := rfl
@[simp] theorem State.restartDeadline_qsu (i : Nat) : (s.restartDeadline i).qsu = s.qsu := rfl
@[simp] theorem State.restartDeadline_xtu (i : Nat) : (s.restartDeadline i).xtu = s.xtu := rfl
@[simp] theorem State.restartDeadline_scu (i : Nat) : (s.restartDeadline i).scu = s.scu := rfl
@[simp] theorem State.restartDeadline_psi (i : Nat) : (s.restartDeadline i).psi = s.psi := rfl
@[simp] theorem State.restartDeadline_uvu (i : Nat) : (s.restartDeadline i).uvu = s.uvu := rfl
@[simp] theorem State.restartDeadline_cju (i : Nat) : (s.restartDeadline i).cju = s.cju := rfl
@[simp] theorem State.restartDeadline_odu (i : Nat) : (s.restartDeadline i).odu = s.odu := rfl
@[simp] theorem State.restartDeadline_staging (i : Nat) : (s.restartDeadline i).staging = s.staging := rfl
@[simp] theorem State.restartDeadline_host (i : Nat) : (s.restartDeadline i).host = s.host := rfl
@[simp] theorem State.restartDeadline_pending (i : Nat) : (s.restartDeadline i).pending = s.pending := rfl

@[simp] theorem State.withSlot_stc (i : Nat) (x : StagingSlot) : (s.withSlot i x).stc = s.stc := rfl
@[simp] theorem State.withSlot_cqp (i : Nat) (x : StagingSlot) : (s.withSlot i x).cqp = s.cqp := rfl
@[simp] theorem State.withSlot_qsu (i : Nat) (x : StagingSlot) : (s.withSlot i x).qsu = s.qsu := rfl
@[simp] theorem State.withSlot_xtu (i : Nat) (x : StagingSlot) : (s.withSlot i x).xtu = s.xtu := rfl
@[simp] theorem State.withSlot_scu (i : Nat) (x : StagingSlot) : (s.withSlot i x).scu = s.scu := rfl
@[simp] theorem State.withSlot_rcu (i : Nat) (x : StagingSlot) : (s.withSlot i x).rcu = s.rcu := rfl
@[simp] theorem State.withSlot_psi (i : Nat) (x : StagingSlot) : (s.withSlot i x).psi = s.psi := rfl
@[simp] theorem State.withSlot_uvu (i : Nat) (x : StagingSlot) : (s.withSlot i x).uvu = s.uvu := rfl
@[simp] theorem State.withSlot_cju (i : Nat) (x : StagingSlot) : (s.withSlot i x).cju = s.cju := rfl
@[simp] theorem State.withSlot_staging (i : Nat) (x : StagingSlot) : (s.withSlot i x).staging = s.staging := rfl
@[simp] theorem State.withSlot_host (i : Nat) (x : StagingSlot) : (s.withSlot i x).host = s.host := rfl
@[simp] theorem State.withSlot_pending (i : Nat) (x : StagingSlot) : (s.withSlot i x).pending = s.pending := rfl

@[simp] theorem State.freeSlot_stc (i : Nat) : (s.freeSlot i).stc = s.stc := rfl
@[simp] theorem State.freeSlot_cqp (i : Nat) : (s.freeSlot i).cqp = s.cqp := rfl
@[simp] theorem State.freeSlot_qsu (i : Nat) : (s.freeSlot i).qsu = s.qsu := rfl
@[simp] theorem State.freeSlot_xtu (i : Nat) : (s.freeSlot i).xtu = s.xtu := rfl
@[simp] theorem State.freeSlot_scu (i : Nat) : (s.freeSlot i).scu = s.scu := rfl
@[simp] theorem State.freeSlot_rcu (i : Nat) : (s.freeSlot i).rcu = s.rcu := rfl
@[simp] theorem State.freeSlot_psi (i : Nat) : (s.freeSlot i).psi = s.psi := rfl
@[simp] theorem State.freeSlot_uvu (i : Nat) : (s.freeSlot i).uvu = s.uvu := rfl
@[simp] theorem State.freeSlot_cju (i : Nat) : (s.freeSlot i).cju = s.cju := rfl
@[simp] theorem State.freeSlot_staging (i : Nat) : (s.freeSlot i).staging = s.staging := rfl
@[simp] theorem State.freeSlot_host (i : Nat) : (s.freeSlot i).host = s.host := rfl
@[simp] theorem State.freeSlot_pending (i : Nat) : (s.freeSlot i).pending = s.pending := rfl

@[simp] theorem State.movePlace_stc (i : Nat) (st : PlaceState) : (s.movePlace i st).stc = s.stc := rfl
@[simp] theorem State.movePlace_cqp (i : Nat) (st : PlaceState) : (s.movePlace i st).cqp = s.cqp := rfl
@[simp] theorem State.movePlace_qsu (i : Nat) (st : PlaceState) : (s.movePlace i st).qsu = s.qsu := rfl
@[simp] theorem State.movePlace_xtu (i : Nat) (st : PlaceState) : (s.movePlace i st).xtu = s.xtu := rfl
@[simp] theorem State.movePlace_scu (i : Nat) (st : PlaceState) : (s.movePlace i st).scu = s.scu := rfl
@[simp] theorem State.movePlace_rcu (i : Nat) (st : PlaceState) : (s.movePlace i st).rcu = s.rcu := rfl
@[simp] theorem State.movePlace_psi (i : Nat) (st : PlaceState) : (s.movePlace i st).psi = s.psi := rfl
@[simp] theorem State.movePlace_uvu (i : Nat) (st : PlaceState) : (s.movePlace i st).uvu = s.uvu := rfl
@[simp] theorem State.movePlace_cju (i : Nat) (st : PlaceState) : (s.movePlace i st).cju = s.cju := rfl
@[simp] theorem State.movePlace_staging (i : Nat) (st : PlaceState) : (s.movePlace i st).staging = s.staging := rfl
@[simp] theorem State.movePlace_host (i : Nat) (st : PlaceState) : (s.movePlace i st).host = s.host := rfl
@[simp] theorem State.movePlace_pending (i : Nat) (st : PlaceState) : (s.movePlace i st).pending = s.pending := rfl

@[simp] theorem State.releasePlace_stc (i : Nat) : (s.releasePlace i).stc = s.stc := rfl
@[simp] theorem State.releasePlace_cqp (i : Nat) : (s.releasePlace i).cqp = s.cqp := rfl
@[simp] theorem State.releasePlace_qsu (i : Nat) : (s.releasePlace i).qsu = s.qsu := rfl
@[simp] theorem State.releasePlace_xtu (i : Nat) : (s.releasePlace i).xtu = s.xtu := rfl
@[simp] theorem State.releasePlace_scu (i : Nat) : (s.releasePlace i).scu = s.scu := rfl
@[simp] theorem State.releasePlace_rcu (i : Nat) : (s.releasePlace i).rcu = s.rcu := rfl
@[simp] theorem State.releasePlace_psi (i : Nat) : (s.releasePlace i).psi = s.psi := rfl
@[simp] theorem State.releasePlace_uvu (i : Nat) : (s.releasePlace i).uvu = s.uvu := rfl
@[simp] theorem State.releasePlace_cju (i : Nat) : (s.releasePlace i).cju = s.cju := rfl
@[simp] theorem State.releasePlace_staging (i : Nat) : (s.releasePlace i).staging = s.staging := rfl
@[simp] theorem State.releasePlace_host (i : Nat) : (s.releasePlace i).host = s.host := rfl
@[simp] theorem State.releasePlace_pending (i : Nat) : (s.releasePlace i).pending = s.pending := rfl

@[simp] theorem State.computeShare_stc : (s.computeShare).stc = s.stc := rfl
@[simp] theorem State.computeShare_cqp : (s.computeShare).cqp = s.cqp := rfl
@[simp] theorem State.computeShare_qsu : (s.computeShare).qsu = s.qsu := rfl
@[simp] theorem State.computeShare_xtu : (s.computeShare).xtu = s.xtu := rfl
@[simp] theorem State.computeShare_scu : (s.computeShare).scu = s.scu := rfl
@[simp] theorem State.computeShare_rcu : (s.computeShare).rcu = s.rcu := rfl
@[simp] theorem State.computeShare_psi : (s.computeShare).psi = s.psi := rfl
@[simp] theorem State.computeShare_uvu : (s.computeShare).uvu = s.uvu := rfl
@[simp] theorem State.computeShare_cju : (s.computeShare).cju = s.cju := rfl
@[simp] theorem State.computeShare_staging : (s.computeShare).staging = s.staging := rfl
@[simp] theorem State.computeShare_host : (s.computeShare).host = s.host := rfl
@[simp] theorem State.computeShare_pending : (s.computeShare).pending = s.pending := rfl

@[simp] theorem State.writeBlock_stc (a : Nat) (l : List Byte) : (s.writeBlock a l).stc = s.stc := rfl
@[simp] theorem State.writeBlock_cqp (a : Nat) (l : List Byte) : (s.writeBlock a l).cqp = s.cqp := rfl
@[simp] theorem State.writeBlock_qsu (a : Nat) (l : List Byte) : (s.writeBlock a l).qsu = s.qsu := rfl
@[simp] theorem State.writeBlock_xtu (a : Nat) (l : List Byte) : (s.writeBlock a l).xtu = s.xtu := rfl
@[simp] theorem State.writeBlock_scu (a : Nat) (l : List Byte) : (s.writeBlock a l).scu = s.scu := rfl
@[simp] theorem State.writeBlock_rcu (a : Nat) (l : List Byte) : (s.writeBlock a l).rcu = s.rcu := rfl
@[simp] theorem State.writeBlock_psi (a : Nat) (l : List Byte) : (s.writeBlock a l).psi = s.psi := rfl
@[simp] theorem State.writeBlock_uvu (a : Nat) (l : List Byte) : (s.writeBlock a l).uvu = s.uvu := rfl
@[simp] theorem State.writeBlock_cju (a : Nat) (l : List Byte) : (s.writeBlock a l).cju = s.cju := rfl
@[simp] theorem State.writeBlock_odu (a : Nat) (l : List Byte) : (s.writeBlock a l).odu = s.odu := rfl
@[simp] theorem State.writeBlock_staging (a : Nat) (l : List Byte) : (s.writeBlock a l).staging = s.staging := rfl
@[simp] theorem State.writeBlock_pending (a : Nat) (l : List Byte) : (s.writeBlock a l).pending = s.pending := rfl

@[simp] theorem State.pollNow_stc : (s.pollNow).stc = s.stc := rfl
@[simp] theorem State.pollNow_qsu : (s.pollNow).qsu = s.qsu := rfl
@[simp] theorem State.pollNow_xtu : (s.pollNow).xtu = s.xtu := rfl
@[simp] theorem State.pollNow_scu : (s.pollNow).scu = s.scu := rfl
@[simp] theorem State.pollNow_rcu : (s.pollNow).rcu = s.rcu := rfl
@[simp] theorem State.pollNow_psi : (s.pollNow).psi = s.psi := rfl
@[simp] theorem State.pollNow_uvu : (s.pollNow).uvu = s.uvu := rfl
@[simp] theorem State.pollNow_cju : (s.pollNow).cju = s.cju := rfl
@[simp] theorem State.pollNow_odu : (s.pollNow).odu = s.odu := rfl
@[simp] theorem State.pollNow_staging : (s.pollNow).staging = s.staging := rfl
@[simp] theorem State.pollNow_host : (s.pollNow).host = s.host := rfl
@[simp] theorem State.pollNow_pending : (s.pollNow).pending = s.pending := rfl

@[simp] theorem State.notifyRing_stc (r : Ring) : (s.notifyRing r).stc = s.stc := rfl
@[simp] theorem State.notifyRing_qsu (r : Ring) : (s.notifyRing r).qsu = s.qsu := rfl
@[simp] theorem State.notifyRing_xtu (r : Ring) : (s.notifyRing r).xtu = s.xtu := rfl
@[simp] theorem State.notifyRing_scu (r : Ring) : (s.notifyRing r).scu = s.scu := rfl
@[simp] theorem State.notifyRing_rcu (r : Ring) : (s.notifyRing r).rcu = s.rcu := rfl
@[simp] theorem State.notifyRing_psi (r : Ring) : (s.notifyRing r).psi = s.psi := rfl
@[simp] theorem State.notifyRing_uvu (r : Ring) : (s.notifyRing r).uvu = s.uvu := rfl
@[simp] theorem State.notifyRing_cju (r : Ring) : (s.notifyRing r).cju = s.cju := rfl
@[simp] theorem State.notifyRing_odu (r : Ring) : (s.notifyRing r).odu = s.odu := rfl
@[simp] theorem State.notifyRing_staging (r : Ring) : (s.notifyRing r).staging = s.staging := rfl
@[simp] theorem State.notifyRing_host (r : Ring) : (s.notifyRing r).host = s.host := rfl
@[simp] theorem State.notifyRing_pending (r : Ring) : (s.notifyRing r).pending = s.pending := rfl

@[simp] theorem State.noteMoments_cqp : (s.noteMoments).cqp = s.cqp := rfl
@[simp] theorem State.noteMoments_qsu : (s.noteMoments).qsu = s.qsu := rfl
@[simp] theorem State.noteMoments_xtu : (s.noteMoments).xtu = s.xtu := rfl
@[simp] theorem State.noteMoments_scu : (s.noteMoments).scu = s.scu := rfl
@[simp] theorem State.noteMoments_rcu : (s.noteMoments).rcu = s.rcu := rfl
@[simp] theorem State.noteMoments_psi : (s.noteMoments).psi = s.psi := rfl
@[simp] theorem State.noteMoments_uvu : (s.noteMoments).uvu = s.uvu := rfl
@[simp] theorem State.noteMoments_cju : (s.noteMoments).cju = s.cju := rfl
@[simp] theorem State.noteMoments_odu : (s.noteMoments).odu = s.odu := rfl
@[simp] theorem State.noteMoments_staging : (s.noteMoments).staging = s.staging := rfl
@[simp] theorem State.noteMoments_host : (s.noteMoments).host = s.host := rfl
@[simp] theorem State.noteMoments_pending : (s.noteMoments).pending = s.pending := rfl

end Sys2Proof.Machine
end

