-- ==== Sys2Proof/Laws/Tables.lean ====
section
/-! SUPPORT. What tables and addressed memory can do: a read after a write, the rising order every operation keeps, and the
canonical form of memory. -/

namespace Sys2Proof.Machine

variable {α : Type}

/-! ### Reading a table after a change -/

theorem tableFind_insert_self (k : Nat) (v : α) (t : Table α) : tableFind k (tableInsert k v t) = some v := by
  induction t with
  | nil => simp [tableInsert, tableFind]
  | cons e rest ih =>
    obtain ⟨k', v'⟩ := e
    simp only [tableInsert]
    split
    · simp [tableFind]
    · split
      · simp [tableFind]
      · simp [tableFind, *]

theorem tableFind_insert_other {k a : Nat} (h : a ≠ k) (v : α) (t : Table α) :
    tableFind a (tableInsert k v t) = tableFind a t := by
  induction t with
  | nil => simp [tableInsert, tableFind, h]
  | cons e rest ih =>
    obtain ⟨k', v'⟩ := e
    simp only [tableInsert]
    split
    · simp [tableFind, h]
    · split
      · subst_vars; simp [tableFind, h]
      · simp only [tableFind, ih]

theorem tableFind_erase_self (k : Nat) (t : Table α) : tableFind k (tableErase k t) = none := by
  induction t with
  | nil => rfl
  | cons e rest ih =>
    obtain ⟨k', v'⟩ := e
    simp only [tableErase]
    split
    · exact ih
    · simp [tableFind, *]

theorem tableFind_erase_other {k a : Nat} (h : a ≠ k) (t : Table α) : tableFind a (tableErase k t) = tableFind a t := by
  induction t with
  | nil => rfl
  | cons e rest ih =>
    obtain ⟨k', v'⟩ := e
    simp only [tableErase]
    split
    · subst_vars; simp [tableFind, h, ih]
    · simp only [tableFind, ih]

/-! ### The rising order -/

theorem tableAbove_le {t : Table α} {a b : Nat} (h : a ≤ b) (hb : tableAbove b t = true) : tableAbove a t = true := by
  cases t with
  | nil => rfl
  | cons e rest =>
    simp only [tableAbove, Bool.and_eq_true, decide_eq_true_eq] at hb ⊢
    exact ⟨by omega, hb.2⟩

theorem tableAbove_erase {t : Table α} {a : Nat} (k : Nat) (h : tableAbove a t = true) : tableAbove a (tableErase k t) = true := by
  induction t generalizing a with
  | nil => rfl
  | cons e rest ih =>
    obtain ⟨k', v'⟩ := e
    simp only [tableAbove, Bool.and_eq_true, decide_eq_true_eq] at h
    simp only [tableErase]
    split
    · exact ih (tableAbove_le (by omega) h.2)
    · simp [tableAbove, h.1, ih h.2]

theorem tableAbove_insert {t : Table α} {a k : Nat} {v : α} (hk : a < k) (h : tableAbove a t = true) :
    tableAbove a (tableInsert k v t) = true := by
  induction t generalizing a with
  | nil => simp [tableInsert, tableAbove, hk]
  | cons e rest ih =>
    obtain ⟨k', v'⟩ := e
    simp only [tableAbove, Bool.and_eq_true, decide_eq_true_eq] at h
    simp only [tableInsert]
    split
    · simp [tableAbove, *]
    · split
      · subst_vars; simp [tableAbove, hk, h.2]
      · simp [tableAbove, h.1, ih (a := k') (by omega) h.2]

theorem tableRising_erase {t : Table α} (k : Nat) (h : tableRising t = true) : tableRising (tableErase k t) = true := by
  induction t with
  | nil => rfl
  | cons e rest ih =>
    obtain ⟨k', v'⟩ := e
    have hr : tableRising rest = true := by
      cases rest with
      | nil => rfl
      | cons e' r => exact (Bool.and_eq_true _ _ ▸ h).2
    simp only [tableErase]
    split
    · exact ih hr
    · exact tableAbove_erase k h

theorem tableRising_insert {t : Table α} (k : Nat) (v : α) (h : tableRising t = true) :
    tableRising (tableInsert k v t) = true := by
  cases t with
  | nil => rfl
  | cons e rest =>
    obtain ⟨k', v'⟩ := e
    simp only [tableInsert]
    split
    · simp [tableRising, tableAbove, *]; exact h
    · split
      · subst_vars; exact h
      · exact tableAbove_insert (by omega) h

/-! ### Addressed memory -/

theorem memRead_memWrite_self (m : Mem) (a : Nat) (b : Byte) : memRead (memWrite m a b) a = b := by
  unfold memRead memWrite
  split
  · simp [tableFind_erase_self, *]
  · simp [tableFind_insert_self]

theorem memRead_memWrite_other {m : Mem} {a a' : Nat} {b : Byte} (h : a' ≠ a) : memRead (memWrite m a b) a' = memRead m a' := by
  unfold memRead memWrite
  split
  · rw [tableFind_erase_other h]
  · rw [tableFind_insert_other h]

theorem memRead_memWriteBytes (l : List Byte) (m : Mem) (a x : Nat) :
    memRead (memWriteBytes m a l) x = if a ≤ x ∧ x < a + l.length then l.getD (x - a) 0 else memRead m x := by
  induction l generalizing m a with
  | nil => simp only [memWriteBytes, List.length_nil, Nat.add_zero]; rw [if_neg (by omega)]
  | cons b rest ih =>
    simp only [memWriteBytes, ih, List.length_cons]
    by_cases hx : x = a
    · subst hx
      rw [if_neg (by omega), if_pos (by omega), memRead_memWrite_self, Nat.sub_self]; rfl
    · by_cases hr : a + 1 ≤ x ∧ x < a + 1 + rest.length
      · rw [if_pos hr, if_pos (by omega), show x - a = (x - (a + 1)) + 1 by omega, List.getD_cons_succ]
      · rw [if_neg hr, if_neg (by omega), memRead_memWrite_other hx]

theorem all_erase {t : Table α} {p : Nat × α → Bool} (k : Nat) (h : t.all p = true) : (tableErase k t).all p = true := by
  induction t with
  | nil => rfl
  | cons e rest ih =>
    obtain ⟨k', v'⟩ := e
    simp only [List.all_cons, Bool.and_eq_true] at h
    simp only [tableErase]
    split
    · exact ih h.2
    · simp [h.1, ih h.2]

theorem all_insert {t : Table α} {p : Nat × α → Bool} {k : Nat} {v : α} (hv : p (k, v) = true) (h : t.all p = true) :
    (tableInsert k v t).all p = true := by
  induction t with
  | nil => simp [tableInsert, hv]
  | cons e rest ih =>
    obtain ⟨k', v'⟩ := e
    simp only [List.all_cons, Bool.and_eq_true] at h
    simp only [tableInsert]
    split
    · simp [hv, h]
    · split <;> simp [hv, h, ih h.2]

/-- A write keeps the canonical form. -/
theorem wf_memWrite {m : Mem} (a : Nat) (b : Byte) (h : Memory.wf m = true) : Memory.wf (memWrite m a b) = true := by
  simp only [Memory.wf, Bool.and_eq_true] at h ⊢
  unfold memWrite
  split
  · exact ⟨tableRising_erase a h.1, all_erase a h.2⟩
  · exact ⟨tableRising_insert a b h.1, all_insert (by simpa using ‹_›) h.2⟩

/-- A write of bytes keeps the canonical form. -/
theorem wf_memWriteBytes (l : List Byte) {m : Mem} (a : Nat) (h : Memory.wf m = true) :
    Memory.wf (memWriteBytes m a l) = true := by
  induction l generalizing m a with
  | nil => exact h
  | cons b rest ih => exact ih (a + 1) (wf_memWrite a b h)

/-! ### Owner records -/

theorem owner_withOwner_self (s : State) (o : Nat) (r : OwnerRec) : (s.withOwner o r).owner o = r := by
  unfold State.owner State.withOwner putOwner
  simp only
  split
  · simp [tableFind_erase_self, *]
  · simp [tableFind_insert_self]

theorem owner_withOwner_other {s : State} {o p : Nat} {r : OwnerRec} (h : p ≠ o) : (s.withOwner o r).owner p = s.owner p := by
  unfold State.owner State.withOwner putOwner
  simp only
  split
  · rw [tableFind_erase_other h]
  · rw [tableFind_insert_other h]

end Sys2Proof.Machine
end

