-- ==== Sys2Proof/Laws/Operations.lean ====
section
/-! SUPPORT. What each shared operation can do, once each: taking a command, settling it, a step under a table fault, an access
to an owner record. -/

namespace Sys2Proof.Machine

/-! ### Table faults -/

@[simp] theorem withTables_clean (s t : State) : withTables .clean s t = .next t := rfl

@[simp] theorem withTables_corrected (s t : State) : withTables .corrected s t = .next t := rfl

@[simp] theorem withTables_uncorrectable (s t : State) : withTables .uncorrectable s t = .next (s.enterHalted .table) := rfl

theorem withTables_ok {ecc : Ecc} (h : ecc ≠ .uncorrectable) (s t : State) : withTables ecc s t = .next t := by
  cases ecc <;> simp_all

/-- A step over table memory always answers: its own next state, or HALTED. -/
theorem withTables_next {ecc : Ecc} {s t u : State} (h : withTables ecc s t = .next u) :
    (ecc ≠ .uncorrectable ∧ u = t) ∨ (ecc = .uncorrectable ∧ u = s.enterHalted .table) := by
  cases ecc <;> simp_all [withTables]

@[simp] theorem withTablesIf_true (ecc : Ecc) (s t : State) : withTablesIf true ecc s t = withTables ecc s t := rfl

@[simp] theorem withTablesIf_false (ecc : Ecc) (s t : State) : withTablesIf false ecc s t = .next t := rfl

theorem withTablesIf_ok {p : Bool} {ecc : Ecc} (h : p = true → ecc ≠ .uncorrectable) (s t : State) :
    withTablesIf p ecc s t = .next t := by
  cases p
  · rfl
  · exact withTables_ok (h rfl) s t

/-- A step that touches table memory only where `p` holds always answers: its own next state, or, there alone, HALTED. -/
theorem withTablesIf_next {p : Bool} {ecc : Ecc} {s t u : State} (h : withTablesIf p ecc s t = .next u) :
    u = t ∨ p = true ∧ ecc = .uncorrectable ∧ u = s.enterHalted .table := by
  cases p
  · cases h; exact .inl rfl
  · rcases withTables_next h with ⟨-, rfl⟩ | ⟨he, rfl⟩
    · exact .inl rfl
    · exact .inr ⟨rfl, he, rfl⟩

/-- A posting of the batch always answers: the posting itself, or, where it would start a sweep again, HALTED. -/
theorem posted_next {ecc : Ecc} {s u : State} (h : s.posted ecc = .next u) :
    u = s.postBatch ∨ s.sweepsAgain = true ∧ ecc = .uncorrectable ∧ u = s.enterHalted .table :=
  withTablesIf_next h

/-- Entry to HALTED. -/
theorem haltedFrom_enterHalted (s : State) (r : HaltReason) : haltedFrom s (s.enterHalted r) r := by
  simp [haltedFrom, State.enterHalted, Psi.quiet, Odu.halt, State.raise]

/-! ### The sweep -/

/-- A removal signals the sweep as R41 says. -/
theorem sweepSignalled_signalSweep (s : State) : sweepSignalled s s.signalSweep.xtu s.signalSweep.cqp := by
  by_cases hw : s.xtu.sweep.state = .idle
  · have hs : s.signalSweep = s.startSweep := by simp [State.signalSweep, hw]
    rw [hs]; unfold State.startSweep
    refine ⟨fun h => absurd hw h, fun _ hl => ?_, fun _ hl hb => ?_, fun _ hl hb => ⟨fun hc => ?_, fun hc => ?_⟩⟩
    · rw [if_neg hl]; exact ⟨rfl, rfl⟩
    · rw [if_pos hl, State.endSweep, if_pos hb]
      cases ha : s.xtu.sweep.again <;> simp [State.completeSweep, State.withSweep, sweepOver, hl, ha]
    all_goals
      rw [if_pos hl, State.endSweep, if_neg hb, State.postBatch,
        show (s.withSweep { s.xtu.sweep with state := .paused, range := [] }).canHand .reclaim = s.canHand .reclaim from rfl, hc]
    · cases ha : s.xtu.sweep.again <;>
        simp [State.handBatch, State.hand, Cqp.leaveTurn, State.resumeSweep, State.completeSweep, State.withSweep, sweepOver, hl, ha]
    · exact ⟨rfl, rfl⟩
  · have hs : s.signalSweep = s.withSweep { s.xtu.sweep with again := true } := by
      unfold State.signalSweep; split
      · exact absurd ‹_› hw
      · rfl
    rw [hs]
    exact ⟨fun _ => ⟨rfl, rfl⟩, fun h => absurd h hw, fun h => absurd h hw, fun h => absurd h hw⟩

/-! ### The purge requests and the response writer -/

/-- Where no walk runs, the walk that starts is the one R118 names. -/
theorem walkTaken_startWalk {u : Uvu} (h : u.walk = none) : walkTaken u u.startWalk := by
  have hr : ∀ p, (u.allRequests.contains p || (tableFind p u.staleRequests).isSome) = true ↔
      p ∈ u.allRequests ∨ ∃ target, tableFind p u.staleRequests = some target := by
    intro p; simp [Option.isSome_iff_exists]
  refine ⟨fun hn => ?_, fun p hp hq => ?_⟩
  · have : (List.range Config.stationCount).find?
        (fun p => u.allRequests.contains p || (tableFind p u.staleRequests).isSome) = none := by
      rw [List.find?_eq_none]
      intro q hq hw
      exact hn q (List.mem_range.mp hq) ((hr q).mp hw)
    unfold Uvu.startWalk
    rw [this]
    cases u; simp_all
  · have found : (p ∈ u.allRequests ∨ ∃ target, tableFind p u.staleRequests = some target) →
        (List.range Config.stationCount).find?
          (fun p => u.allRequests.contains p || (tableFind p u.staleRequests).isSome) = some p := by
      intro hw
      rw [List.find?_range_eq_some]
      exact ⟨(hr p).mpr hw, List.mem_range.mpr hp, fun q hlt => by
        simpa using mt (hr q).mp (hq q hlt)⟩
    refine ⟨fun ha => ?_, fun target ha ht => ?_⟩
    · unfold Uvu.startWalk
      rw [found (.inl ha)]
      simp [h, ha]
    · unfold Uvu.startWalk
      rw [found (.inr ⟨target, ht⟩)]
      simp [h, ha, ht]

/-- Everything a look at the Response Ring can do: a ring fault, nothing but the index kept, or one entry written. -/
theorem respond_cases (s : State) (consumer : IndexRead) (dma : DmaWrite) :
    (s.respond consumer dma = s.ringFault ∧ ∀ v, consumer = .value v → 512 ≤ v) ∨
    ∃ v, consumer = .value v ∧ v < 512 ∧
      let full := decide ((s.cqp.write + 1) % 512 = v)
      let t := { s with cqp := { s.cqp with lastConsumer := v, pollTimer := 0, roomWait := full } }
      ((full = true ∨ t.nextSource = none) ∧ s.respond consumer dma = t) ∨
      ∃ src entry, full = false ∧ t.nextSource = some (src, entry) ∧
        s.respond consumer dma = match dma with
          | .failed => t.ringFault
          | .done => t.writeEntry src entry := by
  cases consumer with
  | failed => exact .inl ⟨rfl, by simp⟩
  | value v =>
    by_cases hv : v < 512
    · refine .inr ⟨v, rfl, hv, ?_⟩
      simp only [State.respond, Config.responseRingSize, hv, if_true]
      by_cases hf : (s.cqp.write + 1) % 512 = v
      · simp [hf]
      · simp only [hf, decide_false, Bool.false_eq_true, if_false, false_or, true_and]
        split
        · exact .inl ⟨‹_›, rfl⟩
        · exact .inr ⟨_, _, ‹_›, rfl⟩
    · refine .inl ⟨?_, by simpa using hv⟩
      simp [State.respond, Config.responseRingSize, hv]

/-! ### Commands -/

/-- A state that accepts a command fetches its ring. -/
theorem fetches_of_accepted {c : HostCommand} {st : StationState} (h : acceptedIn c st = true) :
    st.fetches .b = true := by
  cases c <;> cases st <;> simp_all [acceptedIn, StationState.fetches, StationState.receives, StationState.operates]

/-- A Ring U command's states fetch Ring U. -/
theorem fetchesU_of_operates {st : StationState} (h : st.operates = true) : st.fetches .u = true := by
  cases st <;> simp_all [StationState.fetches, StationState.receives, StationState.operates]

theorem receives_of_operates {st : StationState} (h : st.operates = true) : st.receives = true := by
  cases st <;> simp_all [StationState.receives, StationState.operates]

/-- A unit takes the Ring B command it is offered. -/
theorem serveB_offered {s : State} {e : InProgress} {c : HostCommand} (h : s.offersB e c) (unit : InProgress → Result) :
    serveB c s unit = unit e := by
  obtain ⟨h1, h2, h3, h4⟩ := h
  have hf := fetches_of_accepted h4
  simp [serveB, State.fetchedB, h1, h2, h3, h4, hf]

/-- Everything the service of a Ring B command can do: nothing, NOT-NOW, or what its unit does. -/
theorem serveB_cases {c : HostCommand} {s : State} {unit : InProgress → Result} {r : Result} (h : serveB c s unit = r) :
    (s.fetchedB c = none ∧ r = .next s) ∨
    (∃ e, s.fetchedB c = some e ∧ acceptedIn c s.stc.state = false ∧
      r = .next (s.settle .b e.position (OutcomeCode.bare .notNow))) ∨
    (∃ e, s.fetchedB c = some e ∧ acceptedIn c s.stc.state = true ∧ r = unit e) := by
  unfold serveB at h
  split at h
  · exact .inl ⟨‹_›, h.symm⟩
  · cases ha : acceptedIn c s.stc.state with
    | true => exact .inr (.inr ⟨_, ‹_›, rfl, by simpa [ha] using h.symm⟩)
    | false => exact .inr (.inl ⟨_, ‹_›, rfl, by simpa [ha] using h.symm⟩)

/-- XTU takes the Ring U command it is offered. -/
theorem fetchedU_offered {s : State} {before after : List InProgress} {e : InProgress} {c : HostCommand}
    (h : s.offersU before e after c) (hf : s.stc.state.fetches .u = true) : s.fetchedU c = some e := by
  obtain ⟨h1, h2, h3, h4, -, -⟩ := h
  have hn : s.nextU = some e := by
    unfold State.nextU
    rw [h1, List.find?_append]
    have : before.find? (fun e => decide (e.phase = Phase.untaken)) = none := by
      rw [List.find?_eq_none]; intro x hx; simpa using h2 x hx
    simp [this, h3]
  simp [State.fetchedU, hn, h4, hf]

/-- A list with the entry of one ring position changed, the other entries coming from other positions. -/
theorem map_at_position {before after : List InProgress} {e : InProgress} (h : ∀ x ∈ before ++ after, x.position ≠ e.position)
    (f : InProgress → InProgress) :
    (before ++ e :: after).map (fun x => if x.position = e.position then f x else x) = before ++ f e :: after := by
  have hb : before.map (fun x => if x.position = e.position then f x else x) = before := by
    exact (List.map_congr_left (g := id) fun x hx => by simp [h x (List.mem_append_left _ hx)]).trans (List.map_id _)
  have ha : after.map (fun x => if x.position = e.position then f x else x) = after := by
    exact (List.map_congr_left (g := id) fun x hx => by simp [h x (List.mem_append_right _ hx)]).trans (List.map_id _)
  simp [hb, ha]

/-- Settling the command XTU is offered. -/
theorem settleU_offered {s t : State} {before after : List InProgress} {e : InProgress} {c : HostCommand}
    (h : s.offersU before e after c) (ht : t.cqp = s.cqp) (v : Verdict) :
    t.settleU e v = t.withListU (before ++ settledU e v.outcome v.provisional v.overSoft v.items :: after) := by
  obtain ⟨h1, -, h3, -, -, h6⟩ := h
  have h1' : t.cqp.ringU.inProgress = before ++ e :: after := by rw [ht]; exact h1
  simp only [State.settleU, State.settle, settleList, Cqp.ring, h1', map_at_position h6]
  simp [State.withListU, settledU, Cqp.withRing, InProgress.move, h3, completionOf]

/-- Settling Ring B's one command. -/
theorem settleB_offered {s t : State} {e : InProgress} {c : HostCommand} (h : s.offersB e c) (ht : t.cqp = s.cqp) (v : Verdict) :
    t.settleB e v = t.answered e v.outcome v.provisional v.overSoft v.items := by
  obtain ⟨h1, -, h3, -⟩ := h
  have h1' : t.cqp.ringB.inProgress = [e] := by rw [ht]; exact h1
  simp [State.settleB, State.settle, State.answered, State.withPhaseB, settleList, Cqp.ring, Cqp.withRing, h1', InProgress.move,
    h3, completionOf]

/-- Ring B's one command takes a phase. -/
theorem phaseB_offered {s t : State} {e : InProgress} {c : HostCommand} (h : s.offersB e c) (ht : t.cqp = s.cqp) (p : Phase) :
    t.phase .b e.position p = t.withPhaseB e p := by
  obtain ⟨h1, -, h3, -⟩ := h
  have h1' : t.cqp.ringB.inProgress = [e] := by rw [ht]; exact h1
  simp [State.phase, State.withPhaseB, Cqp.ring, Cqp.withRing, h1', InProgress.move, h3]

/-! ### Access to an owner record -/

/-- What an access leaves in the record it is one of. -/
theorem owner_access_self (s : State) (o : Nat) (f : OwnerRec → OwnerRec) :
    (s.access o f).owner o = s.closing (f (s.opened o)) := by
  have h := owner_withOwner_self s o (s.closing (f (s.opened o)))
  simpa [State.access, State.report, State.owner] using h

/-- An access leaves every other record as it was. -/
theorem owner_access_other {s : State} {o p : Nat} {f : OwnerRec → OwnerRec} (h : p ≠ o) :
    (s.access o f).owner p = s.owner p := by
  have h := owner_withOwner_other (s := s) (r := s.closing (f (s.opened o))) h
  simpa [State.access, State.report, State.owner] using h

/-- Everything one access does. -/
theorem accessedTo_access (s : State) (o : Nat) (f : OwnerRec → OwnerRec) :
    accessedTo s (s.access o f) o (s.closing (f (s.opened o))) := by
  refine ⟨owner_access_self .., fun p hp => owner_access_other hp, rfl, ?_⟩
  simp only [State.access, State.report, State.withOwner, Bool.and_eq_true, decide_eq_true_eq]
  rfl

/-- Where the tables are in use, the end of an access re-evaluates grace. -/
theorem closing_operates {s : State} (h : s.operates = true) (r : OwnerRec) :
    s.closing r = { r with grace := s.graceAfter r } := by
  simp only [State.closing, h, if_true, State.regrace]

@[simp] theorem access_classes (s : State) (o : Nat) (f : OwnerRec → OwnerRec) : (s.access o f).qsu.classes = s.qsu.classes := rfl

/-- The opening steps leave the class and the totals as they were. -/
theorem opening_fields (s : State) (r : OwnerRec) :
    (s.opening r).cls = r.cls ∧ (s.opening r).live = r.live ∧ (s.opening r).reserved = r.reserved ∧
    (s.opening r).held = r.held ∧ (s.opening r).peerSum = r.peerSum ∧ (s.opening r).lastAnnounced = r.lastAnnounced ∧
    (s.opening r).dirty = r.dirty ∧ (s.opening r).contributions = r.contributions := by
  unfold State.opening State.regrace State.applyPending
  split
  · split
    · simp
    · split <;> simp
  · simp

/-- The end of an access writes the grace state alone. -/
theorem closing_eq (s : State) (r : OwnerRec) : ∃ g, s.closing r = { r with grace := g } := by
  unfold State.closing State.regrace
  split
  · exact ⟨_, rfl⟩
  · exact ⟨r.grace, rfl⟩

end Sys2Proof.Machine
end

