-- ==== Sys2Proof/WellFormed.lean ====
section
/-! DEFINITION. The well-formed steps: every operand within the width of the field, location, ring index or number it stands
for (R168, R184, R196, R197, R198, R200, R201). -/

namespace Sys2Proof

/-- A value that fits a number of bytes. -/
def fits (width v : Nat) : Bool := decide (v < 256 ^ width)

/-- A value that may be absent fits a number of bytes. -/
def optFits (width : Nat) (v : Option Nat) : Bool := v.elim true (fits width)

/-- A station number (R93). -/
def stationOk (n : Nat) : Bool := decide (n < Config.stationCount)

/-- A staging slot number (R147). -/
def slotOk (n : Nat) : Bool := decide (n < 8)

/-- A write to an offset of the window does nothing: no location stands there, or STATION-STATE (R168, R197). -/
def unmapped (offset : Nat) : Bool :=
  match Machine.locationAt offset with
  | none | some .stationState => true
  | some .queueBase | some .notifyU | some .notifyB | some .attentionRelease | some .stationReset => false

def IndexRead.wf : IndexRead → Bool
  | .value v => fits 4 v
  | .failed => true

def EntryRead.wf : EntryRead → Bool
  | .bytes entry => decide (entry.length = 64)
  | .failed => true

def EepromRead.wf : EepromRead → Bool
  | .image data => decide (data.length = 64)
  | .stopped | .noDevice => true

/-- A received frame that the station discards (R154, R201). -/
def isBadFrame (data : List Byte) : Bool :=
  match Machine.frameStep data .clean with
  | .badFrame _ => true
  | _ => false

/-- A step is well formed. -/
def Instr.wf : Instr → Bool
  | .powerOn straps | .resetN straps => stationOk straps
  | .stationReset value straps => fits 4 value && stationOk straps
  | .configurationRead read => read.wf
  | .queueBase value _ => fits 8 value
  | .notifyU value | .notifyB value | .attentionRelease value => fits 4 value
  | .unmappedWrite offset value => unmapped offset && fits 8 value
  | .stagingWindowWrite offset data => decide (offset + data.length ≤ Config.stagingBytes)
  | .producerIndexRead _ read => read.wf
  | .commandFetch read => read.wf
  | .responseWrite consumer _ | .responseRoomPoll consumer _ => consumer.wf
  | .charge h o v l _ => fits 4 h && fits 2 o && fits 1 v && fits 2 l
  | .chargeAdmission position _ => decide (position < Config.commandRingSize)
  | .release h _ => fits 4 h
  | .start _ incarnation day second _ => fits 2 incarnation && fits 2 day && fits 4 second
  | .loadOwner o c soft hard grace _ => fits 2 o && fits 1 c && optFits 4 soft && optFits 4 hard && optFits 4 grace
  | .loadSnapshot e d x r g _ => fits 4 e && fits 2 d && fits 4 x && fits 2 r && fits 1 g
  | .loadExtent h o v l _ b d _ _ => fits 4 h && fits 2 o && fits 1 v && fits 2 l && fits 4 b && optFits 4 d
  | .setClock d x _ => fits 2 d && fits 4 x
  | .setLimits o soft hard _ _ => fits 2 o && optFits 4 soft && optFits 4 hard
  | .setOwnerClass o c _ => fits 2 o && fits 1 c
  | .setClass c g w _ => fits 1 c && fits 1 g && fits 1 w
  | .callSnapshot r g _ => fits 2 r && fits 1 g
  | .expireSnapshot e _ => fits 4 e
  | .protectGroup g _ | .unprotectGroup g _ => fits 1 g
  | .restoreOpen e o _ t _ => fits 4 e && fits 2 o && fits 4 t
  | .restoreItem c t x h v _ => fits 1 c && fits 4 t && fits 4 x && fits 4 h && fits 1 v
  | .restoreCommit c t _ _ | .restoreAbort c t _ _ => fits 1 c && fits 4 t
  | .idleExpiry c _ _ => decide (c < 8)
  | .staged x h _ | .stageFailed x h _ => fits 1 x && fits 4 h
  | .inspectOwner o _ => fits 2 o
  | .inspectSnapshots e _ => fits 4 e
  | .inspectPeers st o _ => fits 1 st && optFits 2 o
  | .peerSilence p _ => stationOk p
  | .peerForget p => stationOk p
  | .bulletinArrival data => decide (40 ≤ data.length)
  | .stagingTimeout x _ | .replyTimeout x _ => slotOk x
  | .busyWaitEnd x => slotOk x
  | .ack h n _ _ => fits 4 h && fits 2 n
  | .nak h n reason _ => fits 4 h && fits 2 n && fits 1 reason
  | .badFrame data => isBadFrame data
  | .resetNLow | .attentionPost _ | .dirtyReport _ | .sweepVisit _ | .reclaimBatchTimeout _ | .reclaimBatchPost _
  | .tableEmptyingEnd _ | .cleanupWalkStep _ | .cleanupWalkEnd _ | .rebuildDone _ | .checkWalkVisit _ | .checkWalkEnd _
  | .restoreItemAdmission _ | .inspectNight _ | .expiryPass _ | .clockRollover | .beaconTick _ | .enterActive _
  | .attemptStart | .collision | .backoffEnd | .sendSuccess | .fragment | .bulletinFilter _ | .usageApply _ | .purgeVisit _
  | .walkerExpiry _ | .windowStart _ | .windowEnd _ | .nightReport _ | .copyCompletion _ | .takeForStaging _ | .helloSend
  | .idleSend | .copySend _ | .copySendEnd | .readyFrame _ | .idleFrame | .lossOfSignal _ | .linkSilenceTimeout _
  | .tokenGain | .mediumBusy => true

end Sys2Proof
end

