-- ==== Sys2Proof/Tests/Slice0.lean ====
section
/-! SUPPORT. Tests. Well-formedness refuses an ill-formed step for each check it makes; the worked cases and layouts of the manual
come out as the manual works them; and for each statement that has hypotheses, `witness_<statement>` shows states and operands
that meet them, with the boundary values at which its clauses meet, and small `test_` theorems read fields of the next state. -/

namespace Sys2Proof.Tests

open Sys2Proof Sys2Proof.Machine

/-! ### Helpers -/

/-- What a step leaves, seen through a function of the next state; absent where the step stops. -/
def after {α : Type} (i : Instr) (s : State) (f : State → α) : Option α :=
  match exec i s with
  | .next t => some (f t)
  | _ => none

/-- A station in ACTIVE on day 100, station number 3, link UP, a queue block set. -/
def active : State := { State.reset with
  stc := { Stc.reset with
    state := .active, stationNumber := 3, config := some .defaults, marker := true, clock := ⟨100, 50000, 0⟩ }
  cqp := { Cqp.reset with base := some 65536 }
  psi := { Psi.reset with incarnation := some 9, beaconTimer := some 0 }
  odu := { Odu.reset with linkUp := true } }

def inState (st : StationState) (s : State) : State := { s with stc := { s.stc with state := st } }

/-- A command at ring position 7 with request number 42. -/
def entry (c : HostCommand) (p : Phase) : InProgress := ⟨1, 7, 42, some c, p⟩

def onB (c : HostCommand) (s : State) (p : Phase := .untaken) : State :=
  { s with cqp := { s.cqp with ringB := ⟨8, 8, false, false, [entry c p]⟩ } }

def onU (c : HostCommand) (s : State) (p : Phase := .untaken) : State :=
  { s with cqp := { s.cqp with ringU := ⟨8, 8, false, false, [entry c p]⟩ } }

/-- The outcome of the command of ring B, once settled. -/
def outcomeB (s : State) : Option OutcomeCode :=
  s.cqp.ringB.inProgress.head?.bind fun e => match e.phase with
    | .settled c => some c.outcome
    | _ => none

def outcomeU (s : State) : Option OutcomeCode :=
  s.cqp.ringU.inProgress.head?.bind fun e => match e.phase with
    | .settled c => some c.outcome
    | _ => none

/-- A LIVE, HELD or RESERVED extent of owner 7, volume 2, 10 blocks. -/
def liveAt (birth : Nat) : ExtentRec := ⟨7, 2, 10, .live, some birth, none, some .exempt, false, none⟩
def heldAt (birth death : Nat) : ExtentRec := ⟨7, 2, 10, .held, some birth, some death, some .exempt, false, none⟩
def reservedIn (context : Nat) : ExtentRec := ⟨7, 2, 10, .reserved, none, none, none, false, some context⟩

def withExtents (l : Table ExtentRec) (s : State) : State := { s with xtu := { s.xtu with extents := l } }
def snapAt (epoch : Nat) : SnapRec := ⟨epoch, 90, 0, .localCall, 30, 120, 1, 0, false⟩
def withSnaps (l : List SnapRec) (k : Nat) (s : State) : State := { s with scu := { s.scu with catalogue := l, current := k } }
def withOwners (l : Table OwnerRec) (s : State) : State := { s with qsu := { s.qsu with owners := l } }
def owning (live reserved held : Nat) : OwnerRec := { OwnerRec.fresh with live := live, reserved := reserved, held := held }
def frozenAt (h : Nat) (step : CopyStep) : FrozenEntry := ⟨h, 10, 1, 2, step, 0, 0, none⟩
def withContexts (c : Context) (s : State) : State := { s with rcu := { s.rcu with contexts := s.rcu.contexts.set 0 c } }
def openContext (items : List Nat) : Context := ⟨.opened, some 2, some 7, false, some 77, items, some 0⟩

/-! ### Well-formedness refuses -/

theorem smoke_straps : (Instr.powerOn 16).wf = false ∧ (Instr.powerOn 15).wf = true := by decide
theorem smoke_stationReset : (Instr.stationReset 4294967296 0).wf = false ∧ (Instr.stationReset 1 16).wf = false := by decide
theorem smoke_image : (Instr.configurationRead (.image [0])).wf = false := by decide
theorem smoke_base : (Instr.queueBase (2 ^ 64) .done).wf = false := by decide
theorem smoke_notify : (Instr.notifyU 4294967296).wf = false ∧ (Instr.attentionRelease 4294967296).wf = false := by decide
theorem smoke_location : (Instr.unmappedWrite 0x10 0).wf = false ∧ (Instr.unmappedWrite 0x18 0).wf = true := by decide
theorem smoke_window : (Instr.stagingWindowWrite 8388607 [1, 2]).wf = false ∧ (Instr.stagingWindowWrite 8388607 [1]).wf = true := by decide
theorem smoke_index : (Instr.producerIndexRead .u (.value 4294967296)).wf = false := by decide
theorem smoke_entry : (Instr.commandFetch (.bytes [1])).wf = false := by decide
theorem smoke_consumer : (Instr.responseWrite (.value 4294967296) .done).wf = false := by decide
theorem smoke_charge : (Instr.charge 4294967296 0 0 1 .clean).wf = false ∧ (Instr.charge 1 65536 0 1 .clean).wf = false ∧
    (Instr.charge 1 0 256 1 .clean).wf = false ∧ (Instr.charge 1 0 0 65536 .clean).wf = false := by decide
theorem smoke_position : (Instr.chargeAdmission 256 .clean).wf = false := by decide
theorem smoke_start : (Instr.start none 65536 0 0 .clean).wf = false ∧ (Instr.start none 0 65536 0 .clean).wf = false := by decide
theorem smoke_loads : (Instr.loadOwner 0 256 none none none .clean).wf = false ∧
    (Instr.loadOwner 0 0 (some 4294967296) none none .clean).wf = false ∧ (Instr.loadSnapshot 1 65536 0 1 0 .clean).wf = false ∧
    (Instr.loadExtent 1 0 0 1 none 4294967296 none none .clean).wf = false := by decide
theorem smoke_quota : (Instr.setLimits 65536 none none none .clean).wf = false ∧ (Instr.setOwnerClass 0 256 .clean).wf = false ∧
    (Instr.setClass 0 256 0 none).wf = false ∧ (Instr.setClock 65536 0 .clean).wf = false := by decide
theorem smoke_snapshots : (Instr.callSnapshot 65536 0 .clean).wf = false ∧ (Instr.expireSnapshot 4294967296 .clean).wf = false ∧
    (Instr.protectGroup 256 .clean).wf = false := by decide
theorem smoke_restores : (Instr.restoreOpen 0 65536 none 0 .clean).wf = false ∧ (Instr.restoreItem 0 0 0 0 256 .clean).wf = false ∧
    (Instr.restoreCommit 256 0 1 .clean).wf = false ∧ (Instr.idleExpiry 8 1 .clean).wf = false := by decide
theorem smoke_staging : (Instr.staged 256 1 .clean).wf = false ∧ (Instr.stagingTimeout 8 .clean).wf = false := by decide
theorem smoke_inspects : (Instr.inspectOwner 65536 .clean).wf = false ∧ (Instr.inspectPeers 0 (some 65536) .clean).wf = false := by decide
theorem smoke_peers : (Instr.peerSilence 16 ⟨false, .clean⟩).wf = false ∧ (Instr.peerForget 16).wf = false := by decide
theorem smoke_bulletin : (Instr.bulletinArrival (zeros 39)).wf = false ∧ (Instr.bulletinArrival (zeros 40)).wf = true := by decide
theorem smoke_replies : (Instr.ack 0 65536 0 .clean).wf = false ∧ (Instr.nak 0 0 256 .clean).wf = false ∧
    (Instr.busyWaitEnd 8).wf = false := by decide
theorem smoke_badFrame : (Instr.badFrame (Frame.bytes (.idle 3))).wf = false ∧ (Instr.badFrame [0]).wf = true := by decide +kernel

/-! ### The manual's worked cases and layouts -/

/-- No row of the operation table gives bits, so no word spells a step. -/
theorem test_decode : decodeTableWord 32 1 = none ∧ State.reset.withFetchWord 32 1 = State.reset := by decide

/-- The three words of section 8.2. -/
theorem test_check_value : checkValue [1, 2, 3] = 0xAD1E56A2 ∧ wordsOf [0x3C, 0x5A, 0xC3, 0xA5] = [0xA5C35A3C] := by decide

/-- The four stations of section 8.5. -/
theorem test_fair_share : fairFill 25001 ([(3, 12000), (1, 4000), (6, 9000), (9, 15000)].foldr placeDemand []) =
    [(1, 4000), (6, 7000), (3, 7001), (9, 7000)] ∧ bucketDepth 7001 = 14002 := by decide

/-- The images of R184. -/
theorem test_image : imageValid ([0x02, 0x00] ++ zeros 60 ++ [0x37, 0x6C]) = true ∧ imageValid (List.replicate 64 0xFF) = false ∧
    imageValid (zeros 64) = false := by decide +kernel

/-- The clamped fields of the image of R184, as section 11.7 gives them. -/
theorem test_image_fields : (fun c : ConfigImage =>
    [c.beaconInterval, c.walkerInterval, c.silenceLimit, c.egressCap, c.linkMaximum, c.nightLength, c.peerRetention, c.idleTimeout])
      (imageOf ([0x02, 0x00] ++ zeros 60 ++ [0x37, 0x6C])) = [2, 5, 3, 1, 1, 1, 1, 60] := by decide +kernel

/-- A CHARGE entry laid out by R196 and R198: kind at 0, request at 4, handle at 8, owner at 12, volume at 14, length at 16. -/
theorem test_charge_entry : commandOfEntry ([1, 0, 0, 0] ++ [42, 0, 0, 0] ++ [5, 1, 0, 0] ++ [7, 0] ++ [2, 0] ++ [0, 1] ++ zeros 46) =
    some (.charge 261 7 2 256) := by decide +kernel

/-- A LOAD-EXTENT entry: the state at 18, the birth at 20, the death, present, at 24 and the copy state at 28. -/
theorem test_loadExtent_entry : commandOfEntry ([7, 1, 0, 0] ++ zeros 4 ++ [5, 0, 0, 0] ++ [7, 0] ++ [2, 0] ++ [16, 0] ++ [3, 0] ++
    [1, 0, 0, 0] ++ [9, 0, 0, 0] ++ [2] ++ zeros 35) = some (.loadExtent 5 7 2 16 (some .held) 1 (some 9) (some .copied)) := by decide
/-- LOAD-SNAPSHOT, SET-LIMITS with its hard limit absent, and INSPECT-PEERS with its owner present: the packing of R196. -/
theorem test_packed_entries : commandOfEntry ([6, 0, 0, 0] ++ zeros 4 ++ [5, 0, 0, 0] ++ [7, 1] ++ zeros 2 ++ [9, 0, 0, 0] ++ [30, 0] ++ [3] ++
      zeros 41) = some (.loadSnapshot 5 263 9 30 3) ∧
    commandOfEntry ([9, 1, 0, 0] ++ zeros 4 ++ [7, 0] ++ zeros 2 ++ [1, 0, 0, 0] ++ [2, 0, 0, 0] ++ [2] ++ zeros 43) =
      some (.setLimits 7 (some 1) none (some .rollover)) ∧
    commandOfEntry ([24, 1, 0, 0] ++ zeros 4 ++ [5, 0] ++ [7, 0] ++ zeros 52) = some (.inspectPeers 5 (some 7)) := by decide

/-- A bulletin read back from its bytes, and one damaged. -/
theorem test_bulletin : bulletinOf (Bulletin.bytes ⟨4, 9, 513, .usage 7 1500000⟩) = some ⟨4, 9, 513, .usage 7 1500000⟩ ∧
    bulletinOf ((Bulletin.bytes ⟨4, 9, 513, .usage 7 1⟩).set 8 0) = none ∧
    (Bulletin.bytes ⟨4, 9, 513, .usage 7 1⟩).take 8 = [2, 4, 9, 0, 1, 2, 7, 0] := by decide +kernel
/-- The damage test of R200: an unknown kind, a sender above 15, and a SNAPCALL whose call kind names none, each with its CRC right. -/
theorem test_bulletin_damage : let with_ := fun l : List Byte => l ++ leBytes 2 (crc16 l).toNat
    bulletinOf (with_ ([4, 5] ++ zeros 36)) = none ∧ bulletinOf (with_ ([2, 16] ++ zeros 36)) = none ∧
    bulletinOf (with_ ([3, 5] ++ zeros 36)) = none ∧
    bulletinOf (with_ ([3, 5] ++ zeros 4 ++ [9, 0, 0, 0, 2] ++ zeros 27)) = some ⟨5, 0, 0, .snapcall 9 .night⟩ := by decide +kernel

/-- An ACK of 12 bytes is one, and a HELLO received is a bad frame (R201). -/
theorem test_frames : frameStep (frameBytes 5 0 ([1, 0, 0, 0] ++ [2, 0] ++ zeros 2 ++ [4, 0, 0, 0])) .clean = .ack 1 2 4 .clean ∧
    (match frameStep (Frame.bytes (.hello 3 9)) .clean with | .badFrame _ => true | _ => false) = true := by decide +kernel
/-- A NAK of 8 bytes is one; the same with a body length that is not its kind's is a bad frame; and the first bytes of a HELLO. -/
theorem test_frames_nak : frameStep (frameBytes 6 0 ([1, 0, 0, 0] ++ [2, 0] ++ [1, 0])) .clean = .nak 1 2 1 .clean ∧
    (match frameStep (frameBytes 6 0 ([1, 0, 0, 0] ++ [2, 0] ++ [1])) .clean with | .badFrame _ => true | _ => false) = true ∧
    (Frame.bytes (.hello 3 9)).take 12 = [1, 3, 0, 0, 4, 0, 0, 0, 9, 0, 0, 0] := by decide +kernel

/-- Owner 31,207 of section 1.8 at the start of day 400 and after the first peer update. -/
def termOwner (p : Nat) (g : Grace) : OwnerRec :=
  ⟨2, some 4000000, some 4500000, none, 1800000, 40000, 300001, p, g, 0, false, []⟩

def termWeek (day p : Nat) (g : Grace) : State := { active with
  stc := { active.stc with clock := ⟨day, 0, 0⟩ }
  qsu := ⟨[(31207, termOwner p g)], active.qsu.classes.set 2 ⟨7, 6, .asStation⟩⟩ }

theorem test_term_week_standing : (termWeek 400 2000000 .none).standing (termOwner 2000000 .none) = 3952501 ∧
    (termWeek 400 2000000 .none).chargeable (termOwner 2000000 .none) = 1912501 := by decide
theorem test_term_week_grace : (termWeek 400 2100000 .none).graceAfter (termOwner 2100000 .none) = .running 407 := by decide
theorem test_term_week_decisions : (termWeek 400 2100000 .none).decision (termOwner 2100000 (.running 407)) 256 = .grantedWarn ∧
    (termWeek 407 2100000 .none).decision (termOwner 2100000 (.running 407)) 64 = .deniedGrace := by decide

/-! ### The step, the window and the rings -/

theorem witness_StepRunsTheFrontCommand :
    ({ active with pending := [.fragment, .tokenGain] } : State).pending = .fragment :: [.tokenGain] := by decide

theorem witness_ExecLeavesTheQueue : exec .fragment active = .next { active with psi := active.psi.mediumIdle } := rfl

def lateSecond : State := { active with stc := { active.stc with clock := ⟨100, 86398, 24999999⟩ } }

/-- LOADING; a second that goes on; the last cycle of a second, and the last second but one of a day. -/
theorem witness_IdleStepPassesOneCycle :
    (State.reset.pending = [] ∧ State.reset.stc.state = .loading) ∧
    (active.pending = [] ∧ active.stc.state ≠ .loading ∧ active.stc.clock.phase + 1 < Config.second) ∧
    (lateSecond.pending = [] ∧ lateSecond.stc.state ≠ .loading ∧ lateSecond.stc.clock.phase + 1 = Config.second ∧
      lateSecond.stc.clock.second + 1 < Config.daySeconds) := by decide
/-- The last cycle before the expiry minute, 480: the moment is noted and the expiry pass is the first step due. -/
theorem test_idle_notes : (match step { active with stc := { active.stc with clock := ⟨100, 28799, 24999999⟩ } } with
    | .next t => decide ((t.stc.clock, t.stc.expiryMoment, t.stc.windowMoment, t.pending.head?) =
        (⟨100, 28800, 0⟩, true, false, some (.expiryPass .clean)))
    | _ => false) = true := by decide

/-- STOPPED with no command, any other state, and STOPPED with a command. -/
theorem witness_QueueBaseSetsTheBlock :
    ((inState .stopped active).stc.state = .stopped ∧ (inState .stopped active).cqp.ringB.inProgress = []) ∧
    active.stc.state ≠ .stopped ∧ (onB .inspectNight (inState .stopped active)).cqp.ringB.inProgress ≠ [] := by decide
theorem test_queueBase : after (.queueBase 0x12FFF .done) (inState .stopped active) (·.cqp.base) = some (some 0x12000) ∧
    after (.queueBase 0x12FFF .failed) (inState .stopped active) (fun t => (t.stc.state, t.stc.haltReason)) = some (.halted, some .ring) := by
  decide
theorem test_offsets : windowStep 0x14 1 5 .done = .stationReset 1 5 ∧ active.windowRead 0x18 = 0x235 ∧ active.windowRead 0x10 = 0 ∧
    { active with staging := [(5, 9)] }.stagingRead 3 3 [7] = [0, 0xFF, 0xFF] := by decide

theorem witness_WindowWritesAct :
    (active.operates = true ∧ active.cqp.base.isSome = true) ∧ (inState .rebuild active).stc.state = .rebuild ∧
    (inState .stopped active).stc.state = .stopped ∧ State.reset.cqp.base = none ∧
    ({ active with cqp := { active.cqp with posted := true } } : State).cqp.posted = true ∧ active.cqp.posted = false ∧
    (inState .halted active).stc.state ∈ [StationState.loading, .stopped, .halted] ∧
    (inState .halted active).stc.state ∈ [StationState.loading, .halted] ∧
    8388607 + [(1 : Byte)].length ≤ Config.stagingBytes ∧ Config.stagingBytes < 8388607 + [(1 : Byte), 2].length := by decide
theorem test_stagingWindowWrite : after (.stagingWindowWrite 8388607 [9]) State.reset (fun t => memRead t.staging 8388607) =
    some 9 := by decide
theorem test_notifyU : after (.notifyU 0) active (fun t => (t.cqp.ringU.notify, t.cqp.ringU.reading)) = some (false, true) := by decide
theorem test_attentionRelease : after (.attentionRelease 5) { active with cqp := { active.cqp with posted := true } } State.intAsserted =
    some false := by decide

/-- Both rings with a read under way; index values 255 and 256 part the two clauses. -/
def reading (s : State) : State := { s with cqp := { s.cqp with
  ringU := ⟨0, 0, true, true, []⟩, ringB := ⟨0, 0, false, true, []⟩ } }

theorem witness_ProducerIndexReadEnds : ∀ r ∈ [Ring.u, .b],
    (reading active).stc.state.fetches r = true ∧ (reading active).cqp.base.isSome = true ∧
      ((reading active).cqp.ring r).reading = true := by decide
theorem test_producerIndex : after (.producerIndexRead .u (.value 255)) (reading active) (·.cqp.ringU.known) = some 255 ∧
    after (.producerIndexRead .u (.value 256)) (reading active) (fun t => (t.stc.state, t.stc.haltReason)) =
      some (.halted, some .ring) := by decide

/-- Work on both rings, under a consecutive-U count. -/
def bothRings (count : Nat) : State := { active with cqp := { active.cqp with
  ringU := ⟨255, 0, false, false, []⟩, ringB := ⟨0, 1, false, false, []⟩, lastConsumer := 5, consecutiveU := count } }

theorem witness_FetchedCommandJoinsItsList : (bothRings 7).arbiter = some .u ∧ (bothRings 8).arbiter = some .b := by decide
theorem test_commandFetch : after (.commandFetch (.bytes ([4] ++ zeros 63))) (bothRings 8)
    (fun t => (t.cqp.ringB.fetch, t.cqp.consecutiveU, outcomeB t)) = some (1, 0, some .notNow) := by decide
theorem test_commandFetch_failed : after (.commandFetch .failed) (bothRings 8) (fun t => (t.stc.haltReason, t.cqp.ringB.fetch, t.cqp.consecutiveU)) =
    some (some .ring, 0, 8) := by decide

def onlyU : State := { bothRings 0 with cqp := { (bothRings 0).cqp with ringB := .reset } }
def onlyB : State := { bothRings 0 with cqp := { (bothRings 0).cqp with ringU := .reset } }

theorem witness_ArbiterServesRingBOneInNine :
    ((bothRings 7).canFetch .u = true ∧ (bothRings 7).canFetch .b = true ∧ (bothRings 7).cqp.consecutiveU < 8) ∧
    ((bothRings 8).canFetch .u = true ∧ (bothRings 8).canFetch .b = true ∧ (bothRings 8).cqp.consecutiveU = 8) ∧
    (onlyU.canFetch .u = true ∧ onlyU.canFetch .b = false) ∧ (onlyB.canFetch .u = false ∧ onlyB.canFetch .b = true) ∧
    active.canFetch .u = false ∧ active.canFetch .b = false := by decide

/-- An unknown kind; the other ring's kind; a kind not accepted; a kind accepted. -/
theorem witness_PrecheckOrder :
    commandOfEntry ([26] ++ zeros 63) = none ∧ commandOfEntry ([0] ++ zeros 63) = none ∧
    commandOfEntry ([4] ++ zeros 63) = some .rebuildDone ∧ ringOf .rebuildDone ≠ .u ∧
    (ringOf .rebuildDone = .b ∧ acceptedIn .rebuildDone .active = false) ∧ acceptedIn .rebuildDone .rebuild = true := by decide

/-- A settled command waits to be written, into an empty ring and into one that a read found full. -/
def answering (last poll : Nat) (found : Bool) : State := (fun s => { s with cqp := { s.cqp with
    lastConsumer := last, pollTimer := poll, roomWait := found } })
  (onB .inspectNight active (.settled ⟨25, .b, 7, 42, .done, false, false, []⟩))

/-- Both rows, with and without room, and the faults at a consumer index of 512 and at a failed DMA; a stale last index does not keep
the write from its read. -/
theorem witness_ResponseIsWrittenWhole :
    (∀ last ∈ [0, 1], (answering last 0 false).stc.state.fetches .b = true ∧ (answering last 0 false).cqp.base.isSome = true ∧
      (answering last 0 false).cqp.roomWait = false ∧ (answering last 0 false).nextSource.isSome = true) ∧
    ((0 : Nat) < 512 ∧ (511 : Nat) < 512 ∧ (512 : Nat) ≤ 512) ∧
    ((answering 0 0 false).cqp.write + 1) % 512 ≠ 511 ∧ ((answering 0 0 false).cqp.write + 1) % 512 = 1 ∧
    ((answering 1 2500 true).responseFull = true ∧ Config.roomPoll ≤ (answering 1 2500 true).cqp.pollTimer) := by decide
theorem test_responseWrite : after (.responseWrite (.value 0) .done) (answering 0 0 false)
    (fun t => (t.cqp.write, t.cqp.causes, memRead t.host (65536 + 0x50), memRead t.host (65536 + 0x9000 + 1))) =
      some (1, 256, 1, 25) := by decide +kernel
theorem test_responseWrite_stale : after (.responseWrite (.value 0) .done) (answering 1 0 false) (·.cqp.write) = some 1 ∧
    after (.responseWrite (.value 1) .done) (answering 1 0 false) (fun t => (t.cqp.write, t.cqp.roomWait)) = some (0, true) := by decide
theorem test_responseWrite_fault : after (.responseWrite (.value 512) .done) (answering 0 0 false) (·.stc.haltReason) = some (some .ring) ∧
    after (.responseRoomPoll (.value 0) .failed) (answering 1 2500 true) (fun t => (t.stc.haltReason, t.cqp.write, t.host)) =
      some (some .ring, 0, []) := by decide
theorem test_responseRoomPoll : after (.responseRoomPoll (.value 0) .done) (answering 1 2500 true) (fun t => (t.cqp.write, t.cqp.roomWait)) =
    some (1, false) := by decide

def causing : State := { active with cqp := { active.cqp with causes := 0x81 } }
theorem witness_AttentionIsPosted : causing.cqp.posted = false ∧ causing.cqp.base = some 65536 ∧ causing.cqp.causes ≠ 0 := by decide
theorem test_attentionPost : after (.attentionPost .done) causing
    (fun t => (t.intAsserted, t.cqp.causes, memReadBytes t.host 65536 12)) =
      some (true, 0, [5, 1, 0, 0, 0x81, 0, 0, 0, 1, 0, 0, 0]) := by decide
theorem test_attentionPost_failed : after (.attentionPost .failed) causing (fun t => (t.intAsserted, t.cqp.causes, t.host)) =
    some (true, 0x81, []) := by decide

/-! ### Standing, charges and releases -/

theorem witness_WeightedHeldRoundsUp : weightedHeld 1 1 = 1 ∧ weightedHeld 17 1 = 2 ∧ weightedHeld 17 0 = 0 ∧ weightedHeld 17 16 = 17 := by
  decide

/-- A sum at the ceiling, under the largest limit. -/
def atCeiling : OwnerRec := { owning 4294967295 0 0 with hard := some 4294967294 }
theorem witness_AdmissionDecisionRows :
    4294967295 ≤ active.chargeable atCeiling + atCeiling.reserved + atCeiling.peerSum ∧
    active.decision atCeiling 1 = .deniedHard := by decide

/-- A pending pair due today, one due tomorrow, and REBUILD; grace by each row of its table. -/
theorem witness_AccessOpensAndReports :
    (active.operates = true ∧ (∃ p, ({ OwnerRec.fresh with pendingLimits := some ⟨none, none, 100⟩ } : OwnerRec).pendingLimits = some p ∧
      p.applyDay ≤ active.stc.clock.day)) ∧ ¬ (101 ≤ active.stc.clock.day) ∧ (inState .rebuild active).operates = false ∧
    active.graceAfter { owning 5 0 0 with soft := some 4 } = .running 107 ∧ active.graceAfter { owning 5 0 0 with soft := some 5 } = .none ∧
    active.graceAfter { owning 5 0 0 with soft := some 4, grace := .running 3 } = .running 3 :=
  ⟨⟨rfl, _, rfl, by decide⟩, by decide⟩

/-- A CHARGE of a given length behind an earlier one that holds its handle. -/
def chargeBehind (length : Nat) : State := (onU (.charge 5 7 2 length) active).claim .charge 5
theorem witness_ChargeClaimsItsHandle :
    (onU (.charge 5 7 2 256) active).offersU [] (entry (.charge 5 7 2 256) .untaken) [] (.charge 5 7 2 256) ∧
    (chargeBehind 257).offersU [] (entry (.charge 5 7 2 257) .untaken) [] (.charge 5 7 2 257) ∧
    (⟨5, .charge⟩ : Claim) ∈ (chargeBehind 257).xtu.claims ∧ Ecc.clean ≠ .uncorrectable := by simp only [State.offersU]; decide
/-- Behind an earlier CHARGE of its handle one with a length out of range waits, and is refused once the claim is gone. -/
theorem test_charge_waits : after (.charge 5 7 2 257 .clean) (chargeBehind 257) outcomeU = some none ∧
    after (.charge 5 7 2 257 .clean) ((chargeBehind 257).unclaim 5) outcomeU = some (some .badField) := by decide
theorem test_charge : after (.charge 5 7 2 256 .clean) (onU (.charge 5 7 2 256) active) (fun t => t.xtu.claims) = some [⟨5, .charge⟩] ∧
    after (.charge 5 7 2 257 .clean) (onU (.charge 5 7 2 257) active) outcomeU = some (some .badField) := by decide
theorem test_charge_duplicate : after (.charge 5 7 2 256 .clean) (withExtents [(5, liveAt 1)] (onU (.charge 5 7 2 256) active)) outcomeU =
    some (some .duplicate) := by decide

/-- A CHARGE awaiting its decision; with a hard limit of 9 it is denied, with 10 granted. -/
def deciding (hard : Nat) : State :=
  withOwners [(7, { OwnerRec.fresh with hard := some hard })]
    { onU (.charge 5 7 2 10) active (.claimed 10) with xtu := { active.xtu with claims := [⟨5, .charge⟩] } }

theorem witness_ChargeIsDecided : (deciding 10).operates = true ∧
    (deciding 10).cqp.ringU.inProgress = [] ++ entry (.charge 5 7 2 10) (.claimed 10) :: [] ∧
    (deciding 10).decision ((deciding 10).opened 7) 10 = .granted ∧ (deciding 9).decision ((deciding 9).opened 7) 10 = .deniedHard := by
  decide
theorem test_provisional : (inState .listening active).provisional = true ∧ (inState .mute active).provisional = true ∧
    active.provisional = false ∧
    ({ active with psi := { active.psi with peers := active.psi.peers.set 5 { Peer.afterReset with state := .present } } } : State).provisional =
      true := by decide
theorem test_chargeAdmission : after (.chargeAdmission 7 .clean) (deciding 10)
    (fun t => ((t.owner 7).live, t.extent 5, t.uvu.reports, t.cju.openGen.length, outcomeU t)) =
      some (10, some ⟨7, 2, 10, .live, some 0, none, some .awaiting, false, none⟩, [7], 1, some .granted) := by decide
theorem test_chargeAdmission_denied : after (.chargeAdmission 7 .clean) (deciding 9)
    (fun t => ((t.owner 7).live, t.extent 5, t.xtu.claims, outcomeU t)) = some (0, none, [], some .deniedHard) := by decide

/-- A LIVE extent born at 1, covered by a record of epoch 2 and not by one of epoch 1. -/
def releasing (epoch : Nat) : State :=
  withSnaps [snapAt epoch] 2 <| withOwners [(7, owning 10 0 0)] <| withExtents [(5, liveAt 1), (6, heldAt 1 2), (8, reservedIn 0)] <|
    onU (.release 5) active

theorem witness_ReleaseHoldsOrFrees :
    ((releasing 2).offersU [] (entry (.release 5) .untaken) [] (.release 5) ∧ (⟨5, .charge⟩ : Claim) ∉ (releasing 2).xtu.claims ∧
      (releasing 2).covered (liveAt 1) = true ∧ (releasing 1).covered (liveAt 1) = false) ∧
    (⟨5, .charge⟩ : Claim) ∈ ({ releasing 2 with xtu := { (releasing 2).xtu with claims := [⟨5, .charge⟩] } } : State).xtu.claims := by
  simp only [State.offersU]; decide
theorem test_release_held : after (.release 5 .clean) (releasing 2)
    (fun t => ((t.owner 7).live, (t.owner 7).held, t.xtu.heldList, (t.extent 5).bind ExtentRec.death, outcomeU t)) =
      some (0, 10, [5], some 2, some .held) := by decide
theorem test_release_freed : after (.release 5 .clean) (releasing 1)
    (fun t => ((t.owner 7).live, t.xtu.heldList, t.extent 5, outcomeU t)) = some (0, [], none, some .freed) := by decide

def reporting : State := { active with uvu := { active.uvu with reports := [7, 8] } }
theorem witness_DirtyReportActs : reporting.operates = true ∧ reporting.uvu.reports = 7 :: [8] ∧ (reporting.owner 7).dirty = false ∧
    reporting.uvu.dirtyList.length < 4096 := by decide
theorem witness_DirtyReportActs_flagged : ((withOwners [(7, { OwnerRec.fresh with dirty := true })] reporting).owner 7).dirty = true ∧
    4096 ≤ (List.replicate 4096 0).length := by decide +kernel
theorem test_dirtyReport : after (.dirtyReport .clean) reporting (fun t => (t.uvu.dirtyList, t.uvu.reports, (t.owner 7).dirty)) =
    some ([7], [8], true) := by decide

/-- A sweep at handle 5 with 6 behind it, the entry uncovered; the batch holding 0, 15 or 16 handles. -/
def sweeping (r : ExtentRec) (n : Nat) : State :=
  withOwners [(7, owning 0 0 20)] <| withExtents [(5, r), (6, heldAt 1 2)]
    { active with xtu := { active.xtu with
      sweep := ⟨.running, [5, 6], false⟩, heldList := [5, 6], batch := List.replicate n 99 } }

/-- A sweep at its last entry, or past it, with a batch and a notice queue of given lengths. -/
def ending (range : List Nat) (batch notices : Nat) : State := { sweeping (heldAt 1 2) batch with
  xtu := { (sweeping (heldAt 1 2) batch).xtu with sweep := ⟨.running, range, true⟩ }
  cqp := { active.cqp with notices := List.replicate notices (.reclaim []) } }

theorem witness_SweepVisitsAndEnds :
    ((sweeping (heldAt 1 2) 0).operates = true ∧ (sweeping (heldAt 1 2) 0).xtu.sweep.state = .running ∧
      (sweeping (heldAt 1 2) 0).xtu.sweep.range = 5 :: [6] ∧ [6].head? = some 6 ∧ (6 : Nat) ≠ 5 ∧
      (sweeping (heldAt 1 2) 0).extent 5 = some (heldAt 1 2)) ∧
    (16 ≤ (sweeping (heldAt 1 2) 16).xtu.batch.length ∧ (sweeping (heldAt 1 2) 14).xtu.batch.length < 15 ∧
      (sweeping (heldAt 1 2) 15).xtu.batch.length = 15 ∧ (sweeping (heldAt 1 2) 15).canHand .reclaim = true ∧
      (ending [5, 6] 15 32).xtu.sweep.range = 5 :: [6] ∧ (ending [5, 6] 15 32).canHand .reclaim = false) ∧
    ((sweeping (heldAt 1 2) 0).covered (heldAt 1 2) = false ∧ (heldAt 1 2).copy ≠ some .awaiting ∧
      (withSnaps [snapAt 2] 2 (sweeping (heldAt 1 2) 0)).covered (heldAt 1 2) = true ∧
      ({ heldAt 1 2 with copy := some .awaiting } : ExtentRec).copy = some .awaiting) ∧
    ((ending [] 0 0).xtu.sweep.range = [] ∧ (ending [] 0 0).xtu.batch = [] ∧ (ending [5] 15 0).xtu.sweep.range = [5] ∧
      (ending [5] 15 0).xtu.batch.length < 16 ∧ (ending [5] 15 0).canHand .reclaim = true ∧ (ending [5] 15 32).canHand .reclaim = false) := by
  decide
theorem test_sweepVisit : after (.sweepVisit .clean) (sweeping (heldAt 1 2) 0)
    (fun t => (t.xtu.batch, t.xtu.heldList, t.xtu.sweep.range, (t.owner 7).held, t.extent 5)) = some ([5], [6], [6], 10, none) := by
  decide
theorem test_sweepVisit_ends : after (.sweepVisit .clean) (ending [] 0 0) (fun t => t.xtu.sweep) = some ⟨.running, [5, 6], false⟩ ∧
    after (.sweepVisit .clean) (ending [] 1 0) (fun t => (t.xtu.batch, t.cqp.notices, t.xtu.sweep.state)) =
      some ([], [.reclaim [99]], .running) := by decide
theorem test_sweepVisit_last : after (.sweepVisit .clean) (ending [5] 1 0) (fun t => (t.cqp.notices, t.xtu.heldList, t.xtu.sweep)) =
      some ([.reclaim [99, 5]], [6], ⟨.running, [6], false⟩) ∧
    after (.sweepVisit .clean) (ending [5] 0 32) (fun t => (t.xtu.batch, t.xtu.sweep, t.cqp.waiting)) =
      some ([5], ⟨.paused, [], true⟩, [.reclaim]) := by decide

/-- A paused sweep with nothing left; the report, or staging, has begun to wait before the batch. -/
def batching (waiting : Bool) (order : List NoticeUnit) (notices : Nat) : State := { active with
  xtu := { active.xtu with
    batch := [5, 6], batchTimer := Config.second, batchWaiting := waiting, sweep := ⟨.paused, [], false⟩ }
  cju := { active.cju with report := if order.contains .report then some active.cju.buildReport else none }
  cqp := { active.cqp with waiting := order, notices := List.replicate notices (.reclaim []) } }
/-- A paused sweep with nothing left that has been asked for again. -/
def batchingAgain (waiting : Bool) : State := (fun s => { s with xtu := { s.xtu with sweep := ⟨.paused, [], true⟩, heldList := [9] } })
  (batching waiting [.reclaim] 0)
theorem witness_BatchIsPosted : (batching false [] 0).stc.state.receives = true ∧ (batching false [] 0).xtu.batch ≠ [] ∧
    (batching false [] 0).xtu.batchWaiting = false ∧ Config.second ≤ (batching false [] 0).xtu.batchTimer ∧
    (batching false [] 0).xtu.sweep.again = false ∧ (batchingAgain true).xtu.sweep.again = true ∧
    (batching true [.report, .reclaim] 30).xtu.batchWaiting = true ∧ (batching true [.report, .reclaim] 30).canHand .reclaim = true ∧
    (batching true [.report, .reclaim] 31).canHand .reclaim = false ∧ (batching true [.report, .reclaim] 31).canHand .report = true ∧
    (batching true [.report, .reclaim] 31).noticeOrder = [.report] ++ .reclaim :: [] ∧
    NoticeUnit.reclaim ∉ (batching false [.report] 31).noticeOrder := by decide
theorem test_reclaimBatchTimeout : after .reclaimBatchTimeout (batching false [] 0) (fun t => (t.cqp.notices, t.xtu.batch, t.xtu.sweep.state)) =
      some ([.reclaim [5, 6]], [], .idle) ∧
    after .reclaimBatchTimeout (batching false [.report] 31) (fun t => (t.cqp.notices.length, t.cqp.waiting)) =
      some (31, [.report, .reclaim]) := by decide
theorem test_reclaimBatchPost : after .reclaimBatchPost (batching true [.reclaim] 0) (fun t => (t.cqp.notices, t.xtu.batchWaiting, t.cqp.waiting)) =
    some ([.reclaim [5, 6]], false, []) := by decide
theorem test_reclaimBatchPost_again : after (.reclaimBatchPost .clean) (batchingAgain true) (fun t => (t.xtu.sweep, t.xtu.batch)) =
      some (⟨.running, [9], false⟩, []) ∧
    after (.reclaimBatchPost .uncorrectable) (batchingAgain true) (fun t => (t.stc.haltReason, t.xtu.batch, t.cqp.notices)) =
      some (some .table, [5, 6], []) := by decide

/-! ### Resets, the load and START -/

theorem witness_ResetsLeave : State.reset.stc.resetHeld = false ∧ (2 : Nat) ≠ 1 := by decide
theorem test_resets : after (.resetN 0x15) active (fun t => (t.stc.state, t.stc.stationNumber, t.stc.resetCause, t.stc.marker)) =
      some (.loading, 5, .pin, true) ∧
    after .resetNLow active (fun t => (t.stc.resetHeld, t.stationStateWord)) = some (true, 0x231) := by decide
theorem test_stationReset : after (.stationReset 2 0) active (·.stc.state) = some .active ∧
    after (.powerOn 5) active (fun t => (t.stc.marker, t.stc.stationNumber)) = some (false, 5) := by decide

def goodImage : List Byte := [0x02, 0x00] ++ zeros 60 ++ [0x37, 0x6C]
def loading (reads : Nat) : State := { State.reset with stc := { Stc.reset with reads := reads } }
theorem witness_ConfigurationLoadEnds : (loading 14).stc.state = .loading ∧ (loading 14).stc.resetHeld = false ∧
    (loading 14).stc.reads + 1 < 16 ∧ 16 ≤ (loading 15).stc.reads + 1 ∧ goodImage.length = 64 ∧
    (List.range 32).foldl (fun a i => a ^^^ BitVec.ofNat 16 (leValue ((goodImage.drop (2 * i)).take 2))) 0 = (0x6C35 : Word16) := by decide
theorem test_configurationRead : after (.configurationRead (.image goodImage)) (loading 0)
      (fun t => (t.stc.state, t.stc.configDefaulted)) = some (.stopped, false) ∧
    after (.configurationRead .stopped) (loading 14) (fun t => (t.stc.state, t.stc.reads)) = some (.loading, 15) ∧
    after (.configurationRead .stopped) (loading 15) (fun t => (t.stc.configDefaulted, t.cqp.causes)) = some (true, 4) := by decide

def starting (m : Option StartMode) (second : Nat) : State := onB (.start m 9 400 second) (inState .stopped active)
theorem witness_StartDispatches : ∀ m ∈ [none, some StartMode.fresh, some .resume, some .auto],
    (starting m 86399).offersB (entry (.start m 9 400 86399) .untaken) (.start m 9 400 86399) ∧
    (starting m 86400).offersB (entry (.start m 9 400 86400) .untaken) (.start m 9 400 86400) ∧
    (starting m 86399).stc.marker = true ∧ (starting m 86399).config.keepTables = true := by simp only [State.offersB]; decide
theorem test_start : after (.start (some .resume) 9 400 86399 .clean) (starting (some .resume) 86399)
      (fun t => (t.stc.work, t.psi.incarnation, t.stc.clock)) = some (.cleaning 0 0, some 9, ⟨400, 86399, 0⟩) ∧
    after (.start (some .fresh) 9 400 86400 .clean) (starting (some .fresh) 86400) outcomeB = some (some .badField) := by decide

def emptying : State := { onB .rebuildDone (inState .stopped active) .working with
  stc := { (inState .stopped active).stc with work := .emptying }, qsu := ⟨[(7, owning 1 1 1)], active.qsu.classes⟩ }
def cleaning (owner peer : Nat) (s : State) : State := { s with stc := { s.stc with state := .stopped, work := .cleaning owner peer } }
/-- The last event of the cleanup walk: a DUE record that nothing holds, one with entries undrained, one whose expiry day has come,
and a Held List. -/
def cleaned : State := withSnaps [⟨2, 90, 0, .localCall, 30, 120, 1, 0, true⟩, ⟨3, 90, 0, .localCall, 30, 120, 1, 4, true⟩,
    ⟨4, 90, 0, .localCall, 30, 100, 1, 0, false⟩] 4
  { cleaning 65536 16 (onB .rebuildDone active .working) with xtu := { active.xtu with heldList := [6] } }

theorem witness_StartWorkEnds :
    (emptying.stc.state = .stopped ∧ emptying.stc.work = .emptying ∧
      emptying.cqp.ringB.inProgress = [entry .rebuildDone .working]) ∧
    ((cleaning 0 0 (withExtents [(5, reservedIn 0)] active)).xtu.extents = [] ++ (5, reservedIn 0) :: [] ∧
      (reservedIn 0).state = .reserved) ∧
    (∀ x ∈ (cleaning 65535 0 active).xtu.extents, x.2.state ≠ .reserved) ∧
    [frozenAt 5 .staging].find? (fun y => decide (y.step ≠ .waiting)) = some (frozenAt 5 .staging) ∧
    ((∀ x ∈ (cleaning 65536 15 active).cju.frozen, x.step = .waiting) ∧ (15 : Nat) < 16) ∧
    (cleaned.cqp.ringB.inProgress = [entry .rebuildDone .working] ∧ cleaned.catalogueLaw ∧
      (∀ c ∈ cleaned.rcu.contexts, c.state = .free) ∧ cleaned.xtu.sweep = ⟨.idle, [], false⟩ ∧ cleaned.xtu.batch = []) := by
  simp only [State.catalogueLaw]; decide
theorem test_tableEmptyingEnd : after (.tableEmptyingEnd .clean) emptying
    (fun t => (t.stc.state, (t.owner 7).live, t.cqp.ringU.reading, outcomeB t)) = some (.rebuild, 0, true, some .done) := by decide
theorem test_cleanupWalk : after (.cleanupWalkStep .clean) (cleaning 0 0 (withExtents [(5, reservedIn 0)] active)) (·.extent 5) =
      some none ∧
    after (.cleanupWalkStep .clean) (cleaning 65536 4 active) (fun t => ((t.peer 4).state, t.stc.work)) =
      some (.silent, .cleaning 65536 5) := by decide
theorem test_cleanupWalk_end : after (.cleanupWalkEnd .clean) cleaned
    (fun t => (t.stc.state, t.scu.catalogue.map SnapRec.epoch, t.xtu.sweep, t.cqp.causes)) =
      some (.listening, [3], ⟨.running, [6], true⟩, 128) := by decide

def rebuilding (s : State) : State := inState .rebuild s
def checking (left : List Nat) (n : Nat) (r : ExtentRec) : State :=
  withOwners [(7, owning 0 0 20)] <| withExtents [(5, r)] { rebuilding (onB .rebuildDone active .working) with
    stc := { active.stc with state := .rebuild, work := .checking left 0 0, clock := ⟨100, 28799, 0⟩ }
    xtu := { active.xtu with heldList := [5], batch := List.replicate n 99 } }

/-- The end of a check walk with a batch that finds room or none, a sweep's work left and two records whose expiry day has come. -/
def checked (notices : Nat) : State := (fun s => { s with
    stc := { s.stc with clock := ⟨100, 28800, 0⟩ }, cqp := { s.cqp with notices := List.replicate notices (.reclaim []) } })
  (withSnaps [⟨2, 90, 0, .loaded, 30, 100, 1, 0, false⟩, ⟨3, 90, 0, .loaded, 30, 100, 1, 0, false⟩] 3 (checking [] 2 (heldAt 1 2)))
def noticesFull (s : State) : State := { s with cqp := { s.cqp with notices := List.replicate 32 (.reclaim []) } }

theorem witness_CheckWalkDealsWithHeldList :
    (onB .rebuildDone (rebuilding active)).offersB (entry .rebuildDone .untaken) .rebuildDone ∧
    ((checking [5] 0 (heldAt 1 2)).stc.state = .rebuild ∧ (checking [5] 0 (heldAt 1 2)).stc.work = .checking (5 :: []) 0 0 ∧
      (checking [5] 0 (heldAt 1 2)).extent 5 = some (heldAt 1 2)) ∧
    (checking [5] 0 (heldAt 1 2)).covered (heldAt 1 2) = false ∧
    (withSnaps [snapAt 2] 2 (checking [5] 0 (heldAt 1 2))).covered (heldAt 1 2) = true ∧
    (16 ≤ (checking [5] 16 (heldAt 1 2)).xtu.batch.length ∧ (checking [5] 14 (heldAt 1 2)).xtu.batch.length < 15 ∧
      (checking [5] 15 (heldAt 1 2)).xtu.batch.length = 15 ∧ (checking [5] 15 (heldAt 1 2)).canHand .reclaim = true ∧
      (checking [5] 15 (heldAt 1 2)).xtu.sweep.state ≠ .paused ∧
      (noticesFull (checking [5] 15 (heldAt 1 2))).canHand .reclaim = false) ∧
    ∀ n ∈ [0, 32], (checked n).stc.state = .rebuild ∧ (checked n).stc.work = .checking [] 0 0 ∧
      (checked n).cqp.ringB.inProgress = [entry .rebuildDone .working] ∧ (checked n).catalogueLaw ∧
      (∀ c ∈ (checked n).rcu.contexts, c.state = .free) ∧ (checked n).xtu.sweep = ⟨.idle, [], false⟩ ∧
      (checked n).xtu.heldList ≠ [] := by
  simp only [State.offersB, State.catalogueLaw]; decide
theorem test_rebuildDone : after (.rebuildDone .clean)
    (withExtents [(4, heldAt 1 9), (5, heldAt 1 3), (6, heldAt 1 3)]
      { onB .rebuildDone (rebuilding active) with xtu := { active.xtu with heldList := [4, 6, 5] } })
    (fun t => t.xtu.heldList) = some [6, 5, 4] := by decide
theorem test_checkWalk : after (.checkWalkVisit .clean) (checking [5] 0 (heldAt 1 2))
      (fun t => (t.xtu.batch, t.xtu.heldList, (t.owner 7).held, t.stc.work)) = some ([5], [], 10, .checking [] 1 0) ∧
    after (.checkWalkEnd .clean) (checking [] 0 (heldAt 1 2)) (fun t => (t.stc.state, t.stc.marker, outcomeB t)) =
      some (.listening, true, some .done) := by decide
theorem test_checkWalk_fills : after (.checkWalkVisit .clean) (checking [5] 15 (heldAt 1 2))
      (fun t => (t.xtu.batch, t.cqp.notices, t.stc.work)) =
      some ([], [.reclaim (List.replicate 15 99 ++ [5])], .checking [] 1 0) ∧
    after (.checkWalkVisit .clean) (noticesFull (checking [5] 15 (heldAt 1 2))) (fun t => (t.xtu.batch.length, t.xtu.batchWaiting)) =
      some (16, true) := by decide
theorem test_checkWalk_end : after (.checkWalkEnd .clean) (checked 0) (fun t => (t.cqp.notices, t.scu.catalogue, t.xtu.sweep)) =
      some ([.reclaim [99, 99]], [], ⟨.running, [5], true⟩) ∧
    after (.checkWalkEnd .clean) (checked 32) (fun t => (t.stc.state, t.xtu.batch.length, t.cqp.waiting)) =
      some (.listening, 2, [.reclaim]) := by decide
theorem witness_OwnersAndClassesAreSet :
    (∀ w ∈ [none, some LimitsWhen.now, some .rollover],
      (onB (.setLimits 7 (some 1) (some 4294967294) w) active).offersB (entry (.setLimits 7 (some 1) (some 4294967294) w) .untaken)
        (.setLimits 7 (some 1) (some 4294967294) w)) ∧
    (∀ c ∈ [15, 16], (onB (.setOwnerClass 7 c) active).offersB (entry (.setOwnerClass 7 c) .untaken) (.setOwnerClass 7 c)) ∧
    ∀ w ∈ [16, 17], (onB (.setClass 15 255 w (some .allow)) active).offersB (entry (.setClass 15 255 w (some .allow)) .untaken)
      (.setClass 15 255 w (some .allow)) := by simp only [State.offersB]; decide
theorem test_setLimits : after (.setLimits 7 (some 1) (some 4294967294) (some .rollover) .clean)
      (onB (.setLimits 7 (some 1) (some 4294967294) (some .rollover)) active) (fun t => ((t.owner 7).soft, (t.owner 7).pendingLimits)) =
      some (none, some ⟨some 1, some 4294967294, 101⟩) ∧
    after (.setLimits 7 (some 2) (some 1) (some .now) .clean) (onB (.setLimits 7 (some 2) (some 1) (some .now)) active) outcomeB =
      some (some .badField) := by decide
theorem test_setOwnerClass : after (.setOwnerClass 7 15 .clean) (onB (.setOwnerClass 7 15) active) (fun t => (t.owner 7).cls) = some 15 ∧
    after (.setOwnerClass 7 16 .clean) (onB (.setOwnerClass 7 16) active) outcomeB = some (some .badField) := by decide
theorem test_setClass : after (.setClass 15 255 16 (some .allow)) (onB (.setClass 15 255 16 (some .allow)) active)
      (fun t => t.classRec 15) = some ⟨255, 16, .allow⟩ ∧
    after (.setClass 15 255 17 (some .allow)) (onB (.setClass 15 255 17 (some .allow)) active) outcomeB = some (some .badField) := by
  decide

def loadingOwner (soft : Option Nat) : State := onB (.loadOwner 7 15 soft none (some 65790)) (rebuilding active)
def loadingSnapshot (epoch : Nat) : State := withSnaps [snapAt 2, snapAt 5] 5 (onB (.loadSnapshot epoch 1 2 3650 7) (rebuilding active))
theorem witness_LoadsReplaceOneRecord :
    (∀ soft ∈ [none, some 5], (loadingOwner soft).offersB (entry (.loadOwner 7 15 soft none (some 65790)) .untaken)
      (.loadOwner 7 15 soft none (some 65790))) ∧
    (∀ n ∈ [2, 3, 6], (loadingSnapshot n).offersB (entry (.loadSnapshot n 1 2 3650 7) .untaken) (.loadSnapshot n 1 2 3650 7)) ∧
    ((loadingSnapshot 3).scu.catalogue = [snapAt 2] ++ [snapAt 5] ∧ (∀ r ∈ [snapAt 2], r.epoch < 3) ∧
      ∀ r, [snapAt 5].head? = some r → 3 < r.epoch) := by
  refine ⟨by simp only [State.offersB]; decide, by simp only [State.offersB]; decide, by decide, by decide, ?_⟩
  intro r h; cases h; decide
theorem test_loadOwner : after (.loadOwner 7 15 (some 5) none (some 65790) .clean) (loadingOwner (some 5))
      (fun t => ((t.owner 7).cls, (t.owner 7).grace)) = some (15, .running 65790) ∧
    after (.loadOwner 7 15 none none (some 65790) .clean) (loadingOwner none) outcomeB = some (some .badField) := by decide
theorem test_loadSnapshot : after (.loadSnapshot 6 1 2 3650 7 .clean) (loadingSnapshot 6)
      (fun t => (t.scu.catalogue.map SnapRec.epoch, t.scu.current)) = some ([2, 5, 6], 6) ∧
    after (.loadSnapshot 2 1 2 3650 7 .clean) (loadingSnapshot 2) outcomeB = some (some .duplicate) := by decide

def loadingExtent (st : ExtentState) (death : Option Nat) (s : State) : State :=
  onB (.loadExtent 5 7 15 256 (some st) 3 death (some .awaiting)) (rebuilding s)
theorem witness_LoadExtentMakesOneRecord :
    (loadingExtent .live none active).offersB (entry (.loadExtent 5 7 15 256 (some .live) 3 none (some .awaiting)) .untaken)
      (.loadExtent 5 7 15 256 (some .live) 3 none (some .awaiting)) ∧
    (loadingExtent .held (some 4) active).offersB (entry (.loadExtent 5 7 15 256 (some .held) 3 (some 4) (some .awaiting)) .untaken)
      (.loadExtent 5 7 15 256 (some .held) 3 (some 4) (some .awaiting)) ∧
    (loadingExtent .held (some 4) active).extent 5 = none := by simp only [State.offersB]; decide
theorem test_loadExtent : after (.loadExtent 5 7 15 256 (some .held) 3 (some 4) (some .awaiting) .clean)
      (loadingExtent .held (some 4) active) (fun t => ((t.owner 7).held, t.xtu.heldList, t.cju.openGen, t.scu.loadedMax)) =
      some (256, [5], [⟨5, 256, 3⟩], 4) ∧
    after (.loadExtent 5 7 15 256 (some .held) 3 (some 3) (some .awaiting) .clean) (loadingExtent .held (some 3) active) outcomeB =
      some (some .badField) := by decide

theorem witness_InspectsChangeNothing :
    (onB (.inspectOwner 7) active).offersB (entry (.inspectOwner 7) .untaken) (.inspectOwner 7) ∧
    (onB (.inspectSnapshots 0) active).offersB (entry (.inspectSnapshots 0) .untaken) (.inspectSnapshots 0) ∧
    (∀ st ∈ [15, 16], (onB (.inspectPeers st none) active).offersB (entry (.inspectPeers st none) .untaken) (.inspectPeers st none)) ∧
    (onB .inspectNight active).offersB (entry .inspectNight .untaken) .inspectNight := by simp only [State.offersB]; decide
theorem test_inspectOwner : after (.inspectOwner 7 .clean) (withOwners [(7, owning 10 2 3)] (onB (.inspectOwner 7) active))
    (fun t => (t.cqp.ringB.ready.map fun c => (c.items.drop 7).take 3)) = some (some [.fixed 4 10, .fixed 4 2, .fixed 4 3]) := by decide
theorem test_inspectSnapshots : after (.inspectSnapshots 0 .clean) (withSnaps [snapAt 2] 2 (onB (.inspectSnapshots 0) active))
    (fun t => (t.cqp.ringB.ready.map fun c => c.items.length)) = some (some 19) := by decide
theorem test_inspectPeers : after (.inspectPeers 16 none .clean) (onB (.inspectPeers 16 none) active) outcomeB = some (some .badField) ∧
    after (.inspectPeers 3 none .clean) (onB (.inspectPeers 3 none) active)
      (fun t => (t.cqp.ringB.ready.map fun c => c.items.take 2)) = some (some [.fixed 1 3, .optional true [(2, 9)]]) := by decide
theorem test_inspectNight : after (.inspectNight .clean) (onB .inspectNight active)
    (fun t => (t.cqp.ringB.ready.map fun c => c.items.take 3)) = some (some [.fixed 1 1, .fixed 4 0, .optional false [(4, 0)]]) := by
  decide

/-! ### The clock and the Catalogue -/

def lastCycle (day : Nat) : State := { active with stc := { active.stc with clock := ⟨day, 86399, 25000000⟩ } }
theorem witness_ClockIsSetAndRollsOver :
    (∀ x ∈ [28799, 28800, 86399, 86400], (onB (.setClock 65535 x) active).offersB (entry (.setClock 65535 x) .untaken) (.setClock 65535 x)) ∧
    (onB (.setClock 65535 0) active).operates = true ∧ (onB (.setClock 65535 0) active).config.expiryMinute = 480 ∧
    ((lastCycle 65535).stc.state ≠ .loading ∧ (lastCycle 65535).stc.clock.second = 86399 ∧
      (lastCycle 65535).stc.clock.phase = Config.second) := by simp only [State.offersB]; decide
theorem test_setClock : after (.setClock 400 86399 .clean) (onB (.setClock 400 86399) active) (·.stc.clock) = some ⟨400, 86399, 0⟩ ∧
    after (.setClock 400 86400 .clean) (onB (.setClock 400 86400) active) outcomeB = some (some .badField) := by decide
/-- At the expiry minute of the day it sets, a record whose expiry day has come leaves, and CATALOGUE-CHANGED is raised. -/
theorem test_setClock_expiry : after (.setClock 120 28800 .clean) (onB (.setClock 120 28800) (withSnaps [snapAt 2] 2 active))
      (fun t => (t.scu.catalogue, t.cqp.causes, outcomeB t)) = some ([], 128, some .done) ∧
    after (.setClock 120 28799 .clean) (onB (.setClock 120 28799) (withSnaps [snapAt 2] 2 active)) (·.scu.catalogue) =
      some [snapAt 2] := by decide
theorem witness_ClockIsSetAndRollsOver_pass : (onB (.setClock 120 28800) (withSnaps [snapAt 2] 2 active)).catalogueLaw ∧
    (onB (.setClock 120 28800) (withSnaps [snapAt 2] 2 active)).offersB (entry (.setClock 120 28800) .untaken) (.setClock 120 28800) := by
  simp only [State.catalogueLaw, State.offersB]; decide
theorem test_clockRollover : after .clockRollover (lastCycle 100) (·.stc.clock) = some ⟨101, 0, 0⟩ ∧
    after .clockRollover (lastCycle 65535) (·.stc.clock) = some ⟨65535, 0, 0⟩ := by decide

def calling (g k : Nat) : State := { onB (.callSnapshot 0 g) active with scu := { active.scu with current := k, highestHeard := 11 } }
theorem witness_CallSnapshotMakesARecord :
    (∀ g ∈ [7, 8], (calling g 10).offersB (entry (.callSnapshot 0 g) .untaken) (.callSnapshot 0 g)) ∧
    ((calling 7 10).psi.snapcall = none ∧ (calling 7 10).scu.catalogue.length < 64 ∧ (calling 7 10).chosenEpoch ≤ 4294967295) ∧
    4294967295 < (calling 7 4294967295).chosenEpoch ∧ 64 ≤ (List.replicate 64 (snapAt 1)).length ∧
    ({ active.psi with snapcall := some ⟨.snapcall 1 .admin, 0⟩ } : Psi).snapcall.isSome = true := by simp only [State.offersB]; decide
theorem test_callSnapshot : after (.callSnapshot 0 7 .clean) (calling 7 10)
      (fun t => (t.scu.current, t.scu.catalogue, t.psi.snapcall, t.psi.tx)) =
      some (12, [⟨12, 100, 50000, .localCall, 1, 101, 7, 0, false⟩], some ⟨.snapcall 12 .admin, 0⟩, .deferring) ∧
    after (.callSnapshot 0 7 .clean) (calling 7 4294967295) outcomeB = some (some .epochExhausted) := by decide

def due (epoch expiry undrained : Nat) (d : Bool) : SnapRec := ⟨epoch, 90, 0, .localCall, 30, expiry, 1, undrained, d⟩
def expiring : State := { withSnaps [due 2 100 0 false, due 3 100 4 false, due 4 101 0 false] 4 active with
  stc := { active.stc with expiryMoment := true } }
/-- The record of epoch 2 pinned, or every group protected. -/
def expiringHeld (pinned : Bool) : State :=
  if pinned then withContexts (openContext []) expiring else { expiring with scu := { expiring.scu with protectedSet := 0xFF } }
theorem witness_DueRecordsAreRemoved :
    (withSnaps [due 2 0 0 true] 2 active).snapshot (due 2 0 0 true).epoch = some (due 2 0 0 true) ∧
    (expiring.stc.expiryMoment = true ∧ expiring.operates = true ∧ expiring.catalogueLaw ∧ expiring.pins 2 = 0 ∧
      expiring.scu.protectedSet.getLsbD 1 = false) ∧
    ((expiringHeld true).pins 2 ≠ 0 ∧ (expiringHeld false).scu.protectedSet.getLsbD 1 = true) ∧
    (inState .stopped expiring).operates = false := by
  simp only [State.catalogueLaw]; decide
theorem test_removal : ((withSnaps [due 2 0 0 true] 2 active).removalTest 2).scu.catalogue = [] ∧
    ((withSnaps [due 2 0 0 true] 2 (withContexts (openContext []) active)).removalTest 2).scu.catalogue = [due 2 0 0 true] := by decide
theorem test_expiryPass : after (.expiryPass .clean) expiring (fun t => t.scu.catalogue.map fun r => (r.epoch, r.due)) =
    some [(3, true), (4, false)] := by decide
theorem test_expiryPass_held : ∀ pinned, after (.expiryPass .clean) (expiringHeld pinned)
    (fun t => t.scu.catalogue.map fun r => (r.epoch, r.due)) = some [(2, true), (3, true), (4, false)] := by decide

def expiringNow (undrained : Nat) : State :=
  (fun s => { s with xtu := { s.xtu with sweep := ⟨.running, [5], false⟩ } })
    (withSnaps [due 2 120 undrained false] 2 (onB (.expireSnapshot 2) active))
/-- A record that nothing holds, or whose group is protected; the sweep running, or IDLE with a Held List or with a batch alone. -/
def expiringIdle (held batch : List Nat) : State := (fun s => { s with xtu := { s.xtu with heldList := held, batch := batch } })
  (withSnaps [due 2 120 0 false] 2 (onB (.expireSnapshot 2) active))

/-- Group 1 protected, with two DUE records of it that nothing holds and one of it with entries undrained. -/
def unprotecting : State := (fun s => { s with
    scu := { s.scu with protectedSet := 0x03 }, xtu := { s.xtu with heldList := [6] } })
  (withSnaps [due 2 0 0 true, due 3 0 4 true, due 4 0 0 true] 4 (onB (.unprotectGroup 1) active))

/-! ### Owners, classes, loads and inspections -/

theorem witness_SnapshotsExpireAndAreProtected :
    (∀ n ∈ [0, 1], (expiringNow n).offersB (entry (.expireSnapshot 2) .untaken) (.expireSnapshot 2) ∧
      (expiringNow n).snapshot 2 = some (due 2 120 n false)) ∧
    ((expiringNow 0).pins 2 = 0 ∧ (expiringNow 0).scu.protectedSet.getLsbD 1 = false ∧ (expiringNow 0).xtu.sweep.state ≠ .idle ∧
      (expiringIdle [] [5]).xtu.sweep.state = .idle ∧ (expiringIdle [] [5]).offersB (entry (.expireSnapshot 2) .untaken) (.expireSnapshot 2)) ∧
    (onB (.expireSnapshot 2) active).snapshot 2 = none ∧
    (∀ g ∈ [7, 8], (onB (.protectGroup g) active).offersB (entry (.protectGroup g) .untaken) (.protectGroup g) ∧
      (onB (.unprotectGroup g) active).offersB (entry (.unprotectGroup g) .untaken) (.unprotectGroup g)) ∧
    (onB (.unprotectGroup 7) active).scu.protectedSet.getLsbD 7 = false ∧
    (unprotecting.offersB (entry (.unprotectGroup 1) .untaken) (.unprotectGroup 1) ∧ unprotecting.stc.state ≠ .rebuild ∧
      unprotecting.scu.protectedSet.getLsbD 1 = true ∧ unprotecting.catalogueLaw ∧ unprotecting.xtu.heldList ≠ []) := by
  simp only [State.offersB, State.catalogueLaw]; decide
theorem test_expireSnapshot : after (.expireSnapshot 2 .clean) (expiringNow 0) (fun t => (t.scu.catalogue, t.xtu.sweep.again, t.cqp.causes)) =
      some ([], true, 0) ∧
    after (.expireSnapshot 2 .clean) (expiringNow 1) (fun t => t.scu.catalogue) = some [due 2 100 1 true] := by decide
theorem test_expireSnapshot_idle : after (.expireSnapshot 2 .clean) (expiringIdle [6] []) (fun t => t.xtu.sweep) =
      some ⟨.running, [6], false⟩ ∧
    after (.expireSnapshot 2 .clean) (expiringIdle [] [5]) (fun t => (t.xtu.sweep, t.cqp.notices)) =
      some (⟨.idle, [], false⟩, [.reclaim [5]]) := by decide
theorem test_protectGroup : after (.protectGroup 7 .clean) (onB (.protectGroup 7) active) (·.scu.protectedSet) = some 0x80 ∧
    after (.protectGroup 8 .clean) (onB (.protectGroup 8) active) outcomeB = some (some .badField) := by decide
theorem test_unprotectGroup : after (.unprotectGroup 1 .clean) unprotecting
    (fun t => (t.scu.protectedSet, t.scu.catalogue, t.xtu.sweep, (t.cqp.ringB.ready.map Completion.items))) =
      some (0x01, [due 3 0 4 true], ⟨.running, [6], true⟩, some [.fixed 1 1, .fixed 1 2]) := by decide
/-- What keeps RCU from a restore command: an end in hand, an item's claim, a deadline just passed and one about to. -/
def rcuWork (s : State) : State := { s with rcu := { s.rcu with work := some ⟨.expiry, 3, 0, 0⟩ } }
def itemClaim (s : State) : State := { s with xtu := { s.xtu with claims := [⟨9, .item⟩] } }
def idleFor (n : Nat) (s : State) : State := withContexts { openContext [] with idle := some n } s

/-! ### Restore contexts -/

def opening : State := withSnaps [snapAt 2] 2 (withContexts (openContext []) (onB (.restoreOpen 2 7 (some true) 77) active))
def itemising (s : State) : State := withSnaps [snapAt 2] 2 (withExtents [(5, liveAt 1)] (onB (.restoreItem 0 77 5 6 15) s))
theorem witness_RestoresOpenAndClaim :
    (opening.offersB (entry (.restoreOpen 2 7 (some true) 77) .untaken) (.restoreOpen 2 7 (some true) 77) ∧ opening.rcuWaits = false ∧
      opening.snapshot 2 = some (snapAt 2) ∧
      opening.rcu.contexts = [openContext []] ++ Context.free :: List.replicate 6 Context.free ∧
      (∀ x ∈ [openContext []], x.state ≠ .free) ∧ Context.free.state = .free) ∧
    ((onB (.restoreOpen 2 7 none 77) active).offersB (entry (.restoreOpen 2 7 none 77) .untaken) (.restoreOpen 2 7 none 77)) ∧
    ((itemising (withContexts (openContext []) active)).offersB (entry (.restoreItem 0 77 5 6 15) .untaken) (.restoreItem 0 77 5 6 15) ∧
      (itemising (withContexts (openContext []) active)).rcuWaits = false ∧
      (itemising (withContexts (openContext []) active)).rcu.contexts[0]? = some (openContext []) ∧
      (openContext []).tag = some 77 ∧ (liveAt 1).visible 2 = true ∧ (liveAt 2).visible 2 = false) ∧
    (itemising active).rcu.contexts[0]? = some Context.free ∧
    ((rcuWork opening).rcu.work ≠ none ∧ (∃ y ∈ (itemClaim opening).xtu.claims, y.claimant = .item) ∧
      (idleFor 15000000000 opening).rcuWaits = true ∧ (idleFor 14999999999 opening).rcuWaits = false ∧
      opening.config.idleTimeout * 25000000 = 15000000000) := by simp only [State.offersB]; decide
theorem test_restoreOpen_waits : after (.restoreOpen 2 7 none 77 .clean) (idleFor 15000000000 (onB (.restoreOpen 2 7 none 77) active)) outcomeB =
      some none ∧
    after (.restoreOpen 2 7 none 77 .clean) (idleFor 14999999999 (onB (.restoreOpen 2 7 none 77) active)) outcomeB =
      some (some .badField) := by decide
theorem test_restoreOpen : after (.restoreOpen 2 7 (some true) 77 .clean) opening (fun t => t.rcu.contexts[1]?) =
      some (some ⟨.opened, some 2, some 7, true, some 77, [], some 0⟩) ∧
    after (.restoreOpen 2 7 (some true) 77 .clean) (withSnaps [] 2 opening) outcomeB = some (some .noSnapshot) := by decide
theorem test_restoreItem : after (.restoreItem 0 77 5 6 15 .clean) (itemising (withContexts (openContext []) active)) (·.xtu.claims) =
      some [⟨6, .item⟩] ∧
    after (.restoreItem 0 77 5 6 15 .clean) (itemising active) outcomeB = some (some .noContext) := by decide

/-- An item of 10 blocks awaiting its decision, for an owner whose hard limit is 9 or 10 and whose class has a policy. -/
def admitting (hard : Nat) (p : Policy) : State :=
  { withOwners [(7, { OwnerRec.fresh with hard := some hard })]
      (withContexts (openContext []) (onB (.restoreItem 0 77 5 6 15) active (.claimed 10))) with
    qsu := ⟨[(7, { OwnerRec.fresh with hard := some hard })], active.qsu.classes.set 0 ⟨7, 0, p⟩⟩
    xtu := { active.xtu with claims := [⟨6, .item⟩] } }
theorem witness_RestoreItemIsDecided : ∀ hard ∈ [9, 10], ∀ p ∈ [Policy.allow, .refuse, .partly, .asStation],
    (admitting hard p).operates = true ∧
    (admitting hard p).cqp.ringB.inProgress = [entry (.restoreItem 0 77 5 6 15) (.claimed 10)] ∧
    (admitting hard p).rcu.contexts[0]? = some (openContext []) ∧ (openContext []).owner = some 7 := by decide
theorem test_restoreItemAdmission : after (.restoreItemAdmission .clean) (admitting 10 .refuse)
      (fun t => ((t.owner 7).reserved, t.extent 6, (t.context 0).items, outcomeB t)) =
      some (10, some ⟨7, 15, 10, .reserved, none, none, none, false, some 0⟩, [6], some .granted) ∧
    after (.restoreItemAdmission .clean) (admitting 9 .allow) (fun t => ((t.owner 7).reserved, outcomeB t)) =
      some (10, some .admittedOver) := by decide
theorem test_restoreItemAdmission_denied : after (.restoreItemAdmission .clean) (admitting 9 .partly)
    (fun t => ((t.owner 7).reserved, (t.context 0).state, t.xtu.claims, outcomeB t)) =
      some (0, .limited, [], some .refusedLimit) := by decide

/-- A context with items 6 and 8, or fewer, its deadline running or passed; its record DUE with nothing else to hold it, or absent. -/
def closing (items : List Nat) (idle : Nat) (s : State) : State := withOwners [(7, owning 0 20 0)] <|
  withExtents [(6, reservedIn 0), (8, reservedIn 0)] <| withContexts { openContext items with idle := some idle } s
def dueFor (s : State) : State := withSnaps [due 2 0 0 true] 2 s
/-- A step that ends the context, begun with both items left and gone on with the last one. -/
def halfway (kind : EndKind) (s : State) : State := { s with rcu := { s.rcu with work := some ⟨kind, 0, 1, 10⟩ } }
theorem witness_RestoreContextsEnd :
    (∀ items ∈ [[], [6], [6, 8]], (closing items 15000000000 active).operates = true ∧
      (closing items 15000000000 active).rcu.contexts[0]? = some { openContext items with idle := some 15000000000 } ∧
      (closing items 15000000000 active).rcu.work = none ∧ (closing items 15000000000 active).xtu.claims = [] ∧
      (closing items 15000000000 active).config.idleTimeout * Config.second ≤ 15000000000 ∧
      (closing items 0 (onB (.restoreCommit 0 77) active)).rcuWaits = false ∧
      (closing items 0 (onB (.restoreCommit 0 77) active)).offersB (entry (.restoreCommit 0 77) .untaken) (.restoreCommit 0 77) ∧
      (closing items 0 (onB (.restoreAbort 0 77) active)).offersB (entry (.restoreAbort 0 77) .untaken) (.restoreAbort 0 77)) ∧
    (closing [6, 8] 0 active).extent 6 = some (reservedIn 0) ∧
    ((halfway .commit (closing [8] 0 (onB (.restoreCommit 0 77) active .working))).rcu.work = some ⟨.commit, 0, 1, 10⟩ ∧
      (closing [8] 0 (onB (.restoreCommit 0 77) active .working)).cqp.ringB.inProgress = [entry (.restoreCommit 0 77) .working]) ∧
    ((dueFor (closing [6] 0 active)).snapshot 2 = some (due 2 0 0 true) ∧ (closing [6] 0 active).snapshot 2 = none ∧
      ∀ j d, j ≠ 0 → (dueFor (closing [6] 0 active)).rcu.contexts[j]? = some d → d.epoch = some 2 → d.state = .free) := by
  simp only [State.offersB]
  refine ⟨by decide, by decide, by decide, by decide, by decide, ?_⟩
  intro j d hj h he
  have : d ∈ (dueFor (closing [6] 0 active)).rcu.contexts.tail := by
    cases j with
    | zero => exact absurd rfl hj
    | succ j => exact List.mem_of_getElem? (i := j) (by rw [List.getElem?_tail]; exact h)
  exact (by decide : ∀ d ∈ (dueFor (closing [6] 0 active)).rcu.contexts.tail, d.epoch = some 2 → d.state = .free) d this he
theorem test_restoreCommit : after (.restoreCommit 0 77 1 .clean) (closing [6, 8] 0 (onB (.restoreCommit 0 77) active))
      (fun t => ((t.owner 7).live, (t.owner 7).reserved, t.rcu.work, (t.context 0).items)) =
      some (10, 10, some ⟨.commit, 0, 1, 10⟩, [8]) ∧
    after (.restoreCommit 0 77 1 .clean) (halfway .commit (closing [8] 0 (onB (.restoreCommit 0 77) active .working)))
      (fun t => (t.cju.openGen, t.rcu.work, (t.cqp.ringB.ready.map fun c => c.items))) =
      some ([⟨8, 10, 0⟩], none, some [.fixed 4 2, .fixed 4 20, .fixed 1 2]) := by decide
/-- A context number within and above the range, with every context FREE, and RCU with and without work in hand. -/
theorem witness_RestoreContextsEnd_refused :
    (∀ x ∈ [7, 8], (onB (.restoreCommit x 77) active).offersB (entry (.restoreCommit x 77) .untaken) (.restoreCommit x 77) ∧
      (onB (.restoreAbort x 77) active).offersB (entry (.restoreAbort x 77) .untaken) (.restoreAbort x 77) ∧
      (onB (.restoreCommit x 77) active).rcuWaits = false) ∧
    (halfway .expiry (onB (.restoreCommit 0 77) active)).rcuWaits = true ∧ active.rcu.contexts[7]? = some .free := by
  simp only [State.offersB]
  decide
theorem test_restoreCommit_refused : after (.restoreCommit 8 77 1 .clean) (onB (.restoreCommit 8 77) active) outcomeB = some (some .badField) ∧
    after (.restoreCommit 0 76 1 .clean) (closing [6] 5 (onB (.restoreCommit 0 76) active)) (fun t => (outcomeB t, (t.context 0).idle)) =
      some (some .noContext, some 5) := by decide
theorem test_restoreAbort : after (.restoreAbort 0 77 2 .clean) (closing [6, 8] 0 (onB (.restoreAbort 0 77) active))
    (fun t => ((t.owner 7).reserved, t.extent 6, t.context 0 == .free, outcomeB t)) = some (0, none, true, some .done) := by decide
theorem test_idleExpiry : after (.idleExpiry 0 1 .clean) (dueFor (closing [6] 15000000000 active))
      (fun t => (t.extent 6, t.rcu.work, t.cqp.causes, t.scu.catalogue)) = some (none, none, 144, []) ∧
    after (.idleExpiry 0 1 .clean) (closing [6, 8] 15000000000 active) (fun t => (t.context 0).idle) = some (some 15000000000) := by decide

/-! ### The Peer Segment and the usage view -/

def peerAt (st : PeerState) : Peer := ⟨st, some 4, some 65530, 4, 0, some ⟨true, 1, 2, 9000⟩, some 1, false, some 4⟩
def withPeers (st : PeerState) (s : State) : State := { s with psi := { s.psi with peers := s.psi.peers.set 5 (peerAt st) } }
def ticking (st : StationState) (ticks : Nat) : State := withPeers .present { inState st active with
  psi := { active.psi with beaconTimer := some (2 * Config.second), listeningTicks := ticks } }
/-- A BEACON waits after three attempts, on the wire or not. -/
def beaconWaits (tx : TxState) : State := (fun s => { s with psi := { s.psi with
    beacon := some ⟨.beacon ⟨true, 1, 2, 3⟩, 3⟩, tx := tx, attempt := some ⟨.beacon, ⟨3, 9, 1, .beacon ⟨true, 1, 2, 3⟩⟩⟩ } })
  (ticking .active 2)
theorem witness_BeaconTickCounts : (∀ st ∈ [StationState.listening, .active, .mute], (ticking st 2).operates = true) ∧
    (ticking .active 2).psi.beaconTimer = some (2 * Config.second) ∧
    (ticking .active 2).config.beaconInterval * Config.second ≤ 2 * Config.second ∧
    (5 ≠ (ticking .active 2).stc.stationNumber ∧ ((ticking .active 2).peer 5).state = .present ∧
      (ticking .active 2).config.silenceLimit ≤ ((ticking .active 2).peer 5).silence + 1) ∧
    ((beaconWaits .sending).operates = true ∧ (beaconWaits .sending).psi.beaconTimer = some (2 * Config.second)) ∧
    ((ticking .listening 2).stc.state = .listening ∧ 2 ≤ (ticking .listening 2).psi.listeningTicks) := by decide
theorem test_beaconTick : after (.beaconTick ⟨false, .clean⟩) (ticking .listening 1)
    (fun t => (t.stc.state, t.psi.listeningTicks, t.psi.beacon, (t.peer 5).state)) = some (.listening, 2, none, .silent) := by decide
theorem test_beaconTick_replaces : after (.beaconTick ⟨false, .clean⟩) (beaconWaits .sending)
      (fun t => (t.psi.beacon, t.psi.beaconReplaced, t.psi.tx)) = some (some ⟨.beacon ⟨false, 0, 0, 0⟩, 3⟩, true, .sending) ∧
    after (.beaconTick ⟨false, .clean⟩) (beaconWaits .backoff) (fun t => (t.psi.beaconReplaced, t.psi.tx)) = some (false, .backoff) := by
  decide
/-- A night whose demand is the cap and a peer that asks for 9,000 blocks a second and falls SILENT at this tick: the two share the cap
where the tick takes the share first, and is the whole cap where it counts the silence first (R164). -/
theorem test_beaconTick_order :
    let s := (fun s => { s with cju := { s.cju with
      window := .opened, windowLeft := some Config.second, frozen := [⟨5, 1000000, 1, 2, .waiting, 0, 0, none⟩] } }) (ticking .active 0)
    s.config.egressCap = 12800 ∧ after (.beaconTick ⟨true, .clean⟩) s (fun t => (t.odu.ownShare, (t.peer 5).state)) = some (6400, .silent) ∧
      after (.beaconTick ⟨false, .clean⟩) s (fun t => (t.odu.ownShare, (t.peer 5).state)) = some (12800, .silent) := by decide
theorem test_peerSilence : after (.peerSilence 5 ⟨false, .clean⟩) (ticking .active 0) (fun t => ((t.peer 5).state, t.psi.beacon)) =
    some (.silent, some ⟨.beacon ⟨false, 0, 0, 0⟩, 0⟩) := by decide
theorem test_enterActive : after (.enterActive ⟨false, .clean⟩) (ticking .listening 2) (fun t => (t.stc.state, t.uvu.walkerTimer, t.psi.tx)) =
    some (.active, some 0, .deferring) := by decide

def forgotten : Peer := { peerAt .silent with forgetTimer := 1440 * 60 * Config.second }
def forgetting : State := { active with psi := { active.psi with peers := active.psi.peers.set 15 forgotten } }
def purging (w : PurgeWalk) : State :=
  withOwners [(65535, { OwnerRec.fresh with contributions := [⟨5, 100, 3⟩], peerSum := 100 })]
    (withPeers .present { active with uvu := { active.uvu with walk := some w, poolInUse := 1, viewIncomplete := true } })
/-- A state with requests waiting: both for station 4, an ALL for 6 and a STALE for 2. -/
def requesting (s : State) : State := { s with uvu := { s.uvu with allRequests := [4, 6], staleRequests := [(2, 7), (4, 8)] } }
theorem witness_ForgottenPeerIsPurged :
    (∀ s ∈ [forgetting, requesting forgetting], s.operates = true ∧ 15 ≠ s.stc.stationNumber ∧ s.config.forgetLimit ≠ 0 ∧
      s.psi.peers[15]? = some forgotten ∧ s.uvu.walk = none) ∧
    ({ forgetting with uvu := { forgetting.uvu with walk := some ⟨5, .all, 0⟩ } } : State).uvu.walk ≠ none ∧
    (requesting (purging ⟨5, .all, 65535⟩)).uvu.walk = some ⟨5, .all, 65535⟩ ∧ (purging ⟨5, .all, 65535⟩).stc.state.receives = true ∧
    (purging ⟨5, .stale 3, 65534⟩).uvu.walk = some ⟨5, .stale 3, 65534⟩ := by decide
theorem test_purgeRequests : after (.purgeVisit .clean) (requesting (purging ⟨5, .all, 65535⟩))
      (fun t => (t.uvu.walk, t.uvu.allRequests, t.uvu.staleRequests)) = some (some ⟨2, .stale 7, 0⟩, [4, 6], [(4, 8)]) ∧
    after (.purgeVisit .clean) ((fun s => { s with uvu := { s.uvu with staleRequests := [(4, 8)] } }) (requesting (purging ⟨5, .all, 65535⟩)))
      (fun t => (t.uvu.walk, t.uvu.allRequests, t.uvu.staleRequests)) = some (some ⟨4, .all, 0⟩, [6], [(4, 8)]) := by decide
theorem test_peerForget : after (.peerForget 15) forgetting (fun t => ((t.peer 15).state, t.uvu.walk)) =
    some (.absent, some ⟨15, .all, 0⟩) := by decide
theorem test_purgeVisit : after (.purgeVisit .clean) (purging ⟨5, .stale 2, 65535⟩)
      (fun t => ((t.owner 65535).peerSum, t.uvu.poolInUse, t.uvu.viewIncomplete, t.uvu.walk)) = some (0, 0, false, none) ∧
    after (.purgeVisit .clean) (purging ⟨5, .stale 3, 65535⟩) (fun t => (t.owner 65535).peerSum) = some 100 := by decide

/-- A transmitter in a state, with the USAGE or all three slots occupied. -/
def sending (tx : TxState) (snapcall beacon : Bool) (attempts : Nat) : State := { active with psi := { active.psi with
  snapcall := if snapcall then some ⟨.snapcall 2 .admin, attempts⟩ else none
  beacon := if beacon then some ⟨.beacon ⟨false, 0, 0, 0⟩, attempts⟩ else none
  usage := some ⟨.usage 7 10, attempts⟩
  tx := tx, gapTimer := 240, sequence := 65535, backoffDelay := 1, backoffTimer := 1280 } }
def onWire (slot : SlotKind) (attempts : Nat) (replaced : Bool) : State := (fun s => { s with psi := { s.psi with
  attempt := some ⟨slot, ⟨3, 9, 1, .usage 7 10⟩⟩, beaconReplaced := replaced } }) (sending .sending true true attempts)
theorem witness_AttemptsStartAndEnd :
    ((sending .deferring true true 0).stc.state = .active ∧ (sending .deferring true true 0).psi.tx = .deferring ∧
      (sending .deferring true true 0).psi.mediumBusy = false ∧ 240 ≤ (sending .deferring true true 0).psi.gapTimer ∧
      (sending .deferring true true 0).psi.snapcall = some ⟨.snapcall 2 .admin, 0⟩) ∧
    ((sending .deferring false true 0).psi.snapcall = none ∧
      (sending .deferring false true 0).psi.beacon = some ⟨.beacon ⟨false, 0, 0, 0⟩, 0⟩) ∧
    ((sending .deferring false false 0).psi.beacon = none ∧ (sending .deferring false false 0).psi.usage = some ⟨.usage 7 10, 0⟩) ∧
    ((onWire .beacon 1 true).psi.tx = .sending ∧ (onWire .beacon 1 true).psi.attempt = some ⟨.beacon, ⟨3, 9, 1, .usage 7 10⟩⟩ ∧
      (onWire .beacon 1 true).psi.beaconReplaced = true ∧ (onWire .beacon 1 false).psi.beaconReplaced = false) ∧
    ((sending .backoff true true 0).psi.tx = .backoff ∧
      (sending .backoff true true 0).psi.backoffDelay * 1280 ≤ (sending .backoff true true 0).psi.backoffTimer) := by decide
theorem test_attemptStart : after .attemptStart (sending .deferring false true 0)
    (fun t => (t.psi.sequence, t.psi.tx, t.psi.attempt.map Attempt.slot, t.psi.beacon.map Holding.attempts)) =
      some (0, .sending, some .beacon, some 1) := by decide
theorem test_sendSuccess : after .sendSuccess (onWire .beacon 4 true) (fun t => (t.psi.beacon.map Holding.attempts, t.psi.tx)) =
      some (some 0, .deferring) ∧
    after .sendSuccess (onWire .usage 4 true) (fun t => (t.psi.usage, t.psi.beacon.isSome)) = some (none, true) := by decide
theorem test_backoffEnd : after .backoffEnd (sending .backoff false false 0) (fun t => (t.psi.tx, t.psi.backoffTimer)) =
    some (.deferring, 0) := by decide

theorem witness_CollisionBacksOffOrDrops : ∀ n ∈ [7, 8],
    (onWire .usage n false).psi.tx = .sending ∧ (onWire .usage n false).psi.attempt = some ⟨.usage, ⟨3, 9, 1, .usage 7 10⟩⟩ ∧
    (onWire .usage n false).psi.usage = some ⟨.usage 7 10, n⟩ ∧
    (onWire .snapcall n false).psi.snapcall = some ⟨.snapcall 2 .admin, n⟩ := by decide
theorem test_collision : after .collision (onWire .usage 8 false) (fun t => (t.psi.usage, t.psi.dropCount, t.psi.tx)) =
      some (none, 1, .backoff) ∧
    after .collision (onWire .usage 7 false) (fun t => (t.psi.usage.isSome, t.psi.dropCount)) = some (true, 0) := by decide
theorem test_collision_snapcall : after .collision (onWire .snapcall 8 false) (fun t => (t.psi.snapcall.isSome, t.psi.dropCount)) =
    some (true, 0) := by decide

def hearing (n : Nat) (data : List Byte) (echo : Bool) (s : State) : State :=
  { s with psi := { s.psi with fifo := List.replicate n ⟨data, false, echo⟩ } }
theorem witness_ReceiverTakesBulletins : 40 ≤ (zeros 40).length ∧ (hearing 7 [] false active).stc.state.receives = true ∧
    (hearing 7 [] false active).psi.fifo.length < 8 ∧ 8 ≤ (hearing 8 [] false active).psi.fifo.length ∧
    State.reset.stc.state.receives = false := by decide
theorem test_bulletinArrival : after (.bulletinArrival (zeros 41)) (hearing 7 [] false active)
      (fun t => (t.psi.fifo.length, t.psi.fifo.getLast?.map Received.oversize)) = some (8, some true) ∧
    after (.bulletinArrival (zeros 40)) (hearing 8 [] false active) (fun t => (t.psi.fifo.length, t.psi.overflowCount)) = some (8, 1) := by
  decide
theorem test_medium : after .mediumBusy active (·.psi.mediumBusy) = some true ∧
    after .fragment { active with psi := { active.psi with mediumBusy := true } } (·.psi.mediumBusy) = some false := by decide

/-- Ahead by 32,767 and by 32,768 of a PRESENT entry; the same sequence and another of a SILENT one. -/
theorem witness_AcceptanceFollowsTheTable :
    (peerAt .present).incarnation = some 4 ∧ (peerAt .present).lastSequence = some 65530 ∧
    acceptance (peerAt .present) 4 32761 = .accepted ∧ acceptance (peerAt .present) 4 32762 = .stale ∧
    acceptance (peerAt .silent) 4 65530 = .stale ∧ acceptance (peerAt .silent) 4 32762 = .accepted ∧
    acceptance (peerAt .present) 5 0 = .fresh ∧ acceptance .afterReset 5 0 = .fresh := by decide

def usageFrom (sender sequence : Nat) : List Byte := Bulletin.bytes ⟨sender, 4, sequence, .usage 7 1500000⟩
def beaconFrom (cycle : Nat) : List Byte := Bulletin.bytes ⟨5, 4, 65531, .beacon ⟨true, cycle, 2, 9000⟩⟩
def snapcallFrom (epoch : Nat) : List Byte := Bulletin.bytes ⟨5, 4, 65531, .snapcall epoch .admin⟩
/-- Entry 5 with a reference cycle of 1, and entry 5 not yet caught up with none. -/
def unreferenced (s : State) : State :=
  { s with psi := { s.psi with peers := s.psi.peers.set 5 { peerAt .present with reference := none } } }
theorem witness_FilterDisposesOfTheHead :
    ((hearing 1 (usageFrom 5 65531) false (withPeers .present active)).psi.fifo = ⟨usageFrom 5 65531, false, false⟩ :: [] ∧
      (hearing 1 (usageFrom 5 65531) false (withPeers .present active)).psi.handed = none ∧
      (hearing 1 (usageFrom 5 65531) false (withPeers .present active)).stc.state.receives = true) ∧
    bulletinOf (usageFrom 5 65531) = some ⟨5, 4, 65531, .usage 7 1500000⟩ ∧ bulletinOf (zeros 40) = none ∧
    bulletinOf (beaconFrom 3) = some ⟨5, 4, 65531, .beacon ⟨true, 3, 2, 9000⟩⟩ ∧
    bulletinOf (snapcallFrom 9) = some ⟨5, 4, 65531, .snapcall 9 .admin⟩ ∧
    acceptance ((withPeers .present active).peer 5) 4 65531 = .accepted ∧
    acceptance ((withPeers .present active).peer 5) 4 65530 = .stale ∧ 5 ≠ active.stc.stationNumber ∧
    (5 : Nat) < (withPeers .present active).psi.peers.length ∧ (peerAt .present).caughtUp = false ∧
    (peerAt .present).reference = some 1 ∧ (peerAt .present).purgeTarget = some 4 ∧
    ((unreferenced active).peer 5).reference = none ∧ active.uvu.walk = none ∧ active.scu.current < 9 ∧ ¬ (active.scu.current < 0) ∧
    (bulletinOf (usageFrom 3 1)).map Bulletin.sender = some active.stc.stationNumber := by decide +kernel
theorem test_bulletinFilter : after (.bulletinFilter .clean) (hearing 1 (usageFrom 5 65531) false (withPeers .present active))
      (fun t => (t.psi.handed, (t.peer 5).lastSequence, t.psi.fifo)) = some (some ⟨5, 7, 1500000⟩, some 65531, []) ∧
    after (.bulletinFilter .clean) (hearing 1 (usageFrom 5 65530) false (withPeers .present active)) (fun t => (t.psi.handed, t.psi.fifo)) =
      some (none, []) := by decide +kernel
theorem test_bulletinFilter_beacon : after (.bulletinFilter .clean) (hearing 1 (beaconFrom 3) false (withPeers .present active))
      (fun t => ((t.peer 5).caughtUp, t.uvu.walk)) = some (true, some ⟨5, .stale 4, 0⟩) ∧
    after (.bulletinFilter .clean) (hearing 1 (beaconFrom 2) false (withPeers .present active))
      (fun t => ((t.peer 5).caughtUp, t.uvu.walk)) = some (false, none) ∧
    after (.bulletinFilter .clean) (hearing 1 (beaconFrom 7) false (unreferenced active)) (fun t => (t.peer 5).reference) =
      some (some 7) := by decide +kernel
theorem test_bulletinFilter_snapcall : after (.bulletinFilter .clean) (hearing 1 (snapcallFrom 9) false (withPeers .present active))
      (fun t => (t.scu.current, t.scu.highestHeard, t.scu.catalogue.map SnapRec.origin)) = some (9, 9, [.peerCall 5 .admin]) ∧
    after (.bulletinFilter .clean) (hearing 1 (snapcallFrom 9) false (withPeers .present (rebuilding active)))
      (fun t => (t.scu.current, t.scu.lastMissed, t.cqp.causes)) = some (0, some 9, 128) := by decide +kernel
theorem test_bulletinFilter_own : after (.bulletinFilter .clean)
      (hearing 1 (usageFrom 3 1) false { active with odu := { active.odu with tokens := 300000, ownShare := 200, ownDemand := 300 } })
      (fun t => (t.stc.state, t.cqp.causes, t.odu.tokens, t.odu.ownDemand)) = some (.mute, 2, 256000, 0) ∧
    after (.bulletinFilter .clean) (hearing 1 (zeros 40) false active) (fun t => (t.stc.state, t.psi.errorCount)) =
      some (.active, 1) := by decide +kernel

def handing (value pool : Nat) (held : List Contribution) : State :=
  withOwners [(7, { OwnerRec.fresh with contributions := held, peerSum := (held.map Contribution.value).sum })]
    (withPeers .present { active with
      psi := { active.psi with handed := some ⟨5, 7, value⟩ }, uvu := { active.uvu with poolInUse := pool } })
theorem witness_PeersActOnTheTables : active.scu.current < 1 ∧ active.operates = true ∧ active.scu.catalogue.length < 64 ∧
    (handing 1 524287 []).psi.handed = some ⟨5, 7, 1⟩ ∧ (handing 1 524287 []).stc.state.receives = true ∧
    (handing 1 524287 []).uvu.poolInUse < 524288 ∧ ¬ ((handing 1 524288 []).uvu.poolInUse < 524288) := by decide
/-- The sender's entry stores an incarnation, and, forgotten, none: the value recorded is then free (assumption 44). -/
def handingForgotten : State := { handing 1 5 [] with psi := { (handing 1 5 []).psi with peers := List.replicate 16 .afterReset } }
theorem witness_PeersActOnTheTables_forgotten : ((handing 1 5 []).peer 5).incarnation = some 4 ∧
    (handingForgotten.peer 5).incarnation = none ∧ handingForgotten.psi.handed = some ⟨5, 7, 1⟩ := by decide
theorem test_usageApply_forgotten : after (.usageApply .clean) handingForgotten
    (fun t => ((t.owner 7).peerSum, (t.owner 7).contributions.map Contribution.value)) = some (1, [1]) := by decide
theorem test_usageApply : after (.usageApply .clean) (handing 30 5 [⟨5, 100, 3⟩, ⟨9, 1, 1⟩])
      (fun t => ((t.owner 7).peerSum, (t.owner 7).contributions, t.uvu.poolInUse)) = some (31, [⟨5, 30, 4⟩, ⟨9, 1, 1⟩], 5) ∧
    after (.usageApply .clean) (handing 0 5 [⟨5, 100, 3⟩]) (fun t => ((t.owner 7).contributions, t.uvu.poolInUse)) = some ([], 4) := by
  decide
theorem test_usageApply_pool : after (.usageApply .clean) (handing 1 524288 []) (fun t => ((t.owner 7).peerSum, t.uvu.viewIncomplete)) =
      some (0, true) ∧
    ((active.hearCall 5 9 .admin).scu.current, (inState .rebuild active).hearCall 5 9 .admin |>.scu.lastMissed) = (9, some 9) := by decide
/-- A peer's value that takes the standing above the soft limit starts grace in the access that applies it. -/
theorem test_usageApply_grace :
    after (.usageApply .clean) ((fun s => withOwners [(7, { OwnerRec.fresh with soft := some 10 })] s) (handing 11 0 []))
      (fun t => decide ((t.owner 7).grace = .none)) = some false := by decide

/-- Owner 7 active, 8 and the rest but 65,535 inactive. -/
def walking (dirty : List Nat) (count pointer : Nat) : State := withOwners [(7, { owning 10 0 0 with dirty := true }), (65535, owning 3 0 0)]
  { active with uvu := { active.uvu with
    walkerTimer := some (20 * 25000), dirtyList := dirty, consecutiveDirty := count, sweepPointer := pointer, walkCycle := 65535 } }
theorem witness_WalkerPicksAndAnnounces :
    ((walking [7, 8] 2 0).stc.state = .active ∧ (walking [7, 8] 2 0).uvu.walkerTimer = some (20 * 25000) ∧
      (walking [7, 8] 2 0).config.walkerInterval * 25000 ≤ 20 * 25000 ∧ (walking [7, 8] 2 0).psi.usage = none ∧
      (walking [7, 8] 2 0).uvu.consecutiveDirty < 3) ∧
    (3 ≤ (walking [7, 8] 3 65535).uvu.consecutiveDirty ∧ (walking [7, 8] 3 65535).uvu.sweepPointer < 65536 ∧
      0 < (walking [7, 8] 3 65535).chargeable ((walking [7, 8] 3 65535).owner 65535)) ∧
    ((∀ j, j < 3 → (walking [] 0 4).chargeable ((walking [] 0 4).owner ((4 + j) % 65536)) = 0 ∧
        ((walking [] 0 4).owner ((4 + j) % 65536)).lastAnnounced = 0) ∧
      0 < (walking [] 0 4).chargeable ((walking [] 0 4).owner ((4 + 3) % 65536))) ∧
    (sending .deferring true true 0).psi.usage.isSome = true := by decide
/-- Where the Owner Table lists no record, no owner is active. -/
theorem witness_WalkerPicksAndAnnounces_none : ∀ o : Nat, active.chargeable (active.owner o) = 0 ∧ (active.owner o).lastAnnounced = 0 := by
  intro o; simp [State.chargeable, State.owner, active, tableFind, OwnerRec.fresh, weightedHeld, State.reset, Qsu.reset]
theorem test_walkerExpiry : after (.walkerExpiry .clean) (walking [7, 8] 2 0)
    (fun t => (t.psi.usage, (t.owner 7).lastAnnounced, (t.owner 7).dirty, t.uvu.dirtyList, t.uvu.consecutiveDirty)) =
      some (some ⟨.usage 7 10, 0⟩, 10, false, [8], 3) := by decide
theorem test_walkerExpiry_sweep : after (.walkerExpiry .clean) (walking [7, 8] 3 65535)
      (fun t => (t.psi.usage, t.uvu.sweepPointer, t.uvu.walkCycle, t.uvu.dirtyList)) =
      some (some ⟨.usage 65535 3, 0⟩, 0, 0, [7, 8]) ∧
    after (.walkerExpiry .clean) (walking [] 0 4) (fun t => (t.psi.usage, t.uvu.sweepPointer, t.uvu.walkCycle)) =
      some (some ⟨.usage 7 10, 0⟩, 8, 65535) := by decide +kernel

/-! ### The night window -/

def nightAt (s : State) : State := { s with stc := { s.stc with windowMoment := true } }
def journalled (s : State) : State := { s with cju := { s.cju with openGen := [⟨5, 10, 1⟩, ⟨6, 20, 2⟩], frozen := [frozenAt 4 .waiting] } }
/-- A record of day 100 taken 10 minutes before 50,000 s. -/
def guarded (second : Nat) : State := journalled (nightAt (withSnaps [⟨2, 100, second, .localCall, 30, 130, 1, 0, false⟩] 2 active))
theorem witness_WindowStartTakesTheNight :
    ((guarded 49400).stc.windowMoment = true ∧ (guarded 49400).stc.state = .active ∧ (guarded 49400).cju.window = .closed ∧
      ((guarded 49400).reusable.map SnapRec.epoch) = some 2 ∧ (guarded 49399).reusable = none ∧ (guarded 50001).reusable = none) ∧
    ((guarded 49400).cju.openGen = [⟨5, 10, 1⟩] ++ [⟨6, 20, 2⟩] ∧ (∀ x ∈ [(⟨5, 10, 1⟩ : OpenEntry)], x.birth < 2)) ∧
    ((guarded 49399).psi.snapcall = none ∧ (guarded 49399).scu.catalogue.length < 64 ∧ (guarded 49399).chosenEpoch = 3 ∧
      (∀ y ∈ (guarded 49399).scu.catalogue, y.epoch ≤ (guarded 49399).scu.current) ∧
      (guarded 49399).cju.openGen = [⟨5, 10, 1⟩, ⟨6, 20, 2⟩] ++ [] ∧ ∀ x ∈ [(⟨5, 10, 1⟩ : OpenEntry), ⟨6, 20, 2⟩], x.birth < 3) ∧
    ((inState .mute (nightAt active)).operates = true ∧ (inState .mute (nightAt active)).stc.state ≠ .active) ∧
    (inState .rebuild (nightAt active)).operates = false ∧ (guarded 49400).scu.catalogue.getLast?.isSome = true := by decide
theorem test_windowStart : after (.windowStart .clean) (guarded 49400)
    (fun t => (t.cju.window, t.cju.openGen, t.cju.frozen, t.scu.catalogue.map SnapRec.undrained)) =
      some (.opened, [⟨6, 20, 2⟩], [frozenAt 4 .waiting, frozenAt 5 .waiting], [1]) := by decide
theorem test_windowStart_calls : after (.windowStart .clean) (guarded 49399)
      (fun t => (t.cju.nightly, t.cju.openGen, t.scu.current, t.psi.snapcall)) = some (some 3, [], 3, some ⟨.snapcall 3 .night, 0⟩) ∧
    after (.windowStart .clean) (guarded 49399) (fun t => t.scu.catalogue.getLast?) =
      some (some ⟨3, 100, 50000, .nightCall, 30, 130, 0, 2, false⟩) ∧
    after (.windowStart .clean) (inState .mute (nightAt active)) (fun t => (t.cju.window, t.cju.nightNumber, t.cju.figures.skipped)) =
      some (.skipped, 1, true) := by decide

def nightOver (w : WindowState) : State := { active with cju := { active.cju with window := w, windowLeft := some 0, nightNumber := 6 } }
def reportReady (n : Nat) : State := { active with
  cju := { active.cju with window := .settling, report := some active.cju.buildReport }
  cqp := { active.cqp with notices := List.replicate n (.reclaim []) } }

/-- An open night at its end: entry 4 STAGING in slot 0, entry 5 in slot 7 with a frame in the given place state. -/
def nightBusy (st : PlaceState) : State := { active with
  cju := { (nightOver .opened).cju with frozen := [frozenAt 4 .staging, { frozenAt 5 .inFlight with attempts := 2 }] }
  odu := { active.odu with
    slots := (active.odu.slots.set 0 ⟨.staging, some ⟨4, 2, 1⟩, some 3, none⟩).set 7 ⟨.inFlight, some ⟨5, 2, 0⟩, none, some 9⟩
    places := [⟨5, 7, 1, st⟩], resends := [7], tokens := 6, ownShare := 5, ownDemand := 5 } }
theorem witness_NightEndsWithItsReport :
    (∀ w ∈ [WindowState.closed, .opened, .skipped, .settling], (nightOver w).cju.windowLeft = some 0 ∧ (nightOver w).stc.state ≠ .halted ∧
      (nightOver w).cju.report = none ∧ (nightOver w).odu.places = [] ∧ (nightOver w).odu.completions = []) ∧
    (∀ st ∈ [PlaceState.awaiting none, .resendDue], (nightBusy st).cju.window = .opened ∧ (nightBusy st).cju.windowLeft = some 0 ∧
      (nightBusy st).cju.report = none ∧ ((nightBusy st).odu.places.map Place.slot).Nodup) ∧
    ((reportReady 31).cju.report = some active.cju.buildReport ∧ (reportReady 31).operates = true ∧
      (reportReady 31).canHand .report = true ∧ (reportReady 32).canHand .report = false) := by decide
theorem test_windowEnd : after (.windowEnd .clean) (nightOver .opened) (fun t => (t.cju.window, t.cju.report.map NightReport.nightNumber)) =
    some (.settling, some 6) := by decide
theorem test_windowEnd_busy : after (.windowEnd .clean) (nightBusy .resendDue)
      (fun t => (t.cju.report.map NightReport.frozenEntries, t.odu.places, t.odu.slots == active.odu.slots, t.cju.frozen)) =
      some (some 2, [], true, [frozenAt 4 .waiting, frozenAt 5 .waiting]) ∧
    after (.windowEnd .clean) (nightBusy (.awaiting none)) (fun t => (t.cju.report, t.odu.places.length, (t.slot 0).state, (t.slot 7).state)) =
      some (none, 1, .free, .inFlight) := by decide
theorem test_nightReport : after (.nightReport .clean) (reportReady 31) (fun t => (t.cju.window, t.cqp.notices.length, t.cqp.causes)) =
    some (.closed, 32, 32) := by decide

/-! ### Staging and the Offsite Link -/

theorem witness_CheckValueOverTheData : (0 : Nat) < 1 * 1024 ∧ (3 : Nat) < 4 := by decide

/-- A window with two entries of the frozen generation, the second in a step, and slot 7 holding it. -/
def staging (step : CopyStep) (x : StagingSlot) (s : State) : State := { s with
  cju := { s.cju with window := .opened, frozen := [frozenAt 4 .inFlight, frozenAt 5 step] }
  xtu := { s.xtu with extents := [(5, liveAt 1)] }
  odu := { s.odu with slots := s.odu.slots.set 7 x } }
def stagingSlot (timer : Nat) : StagingSlot := ⟨.staging, some ⟨5, 2, 0⟩, some timer, none⟩
theorem witness_StagingServesAnEntry :
    ((staging .waiting .free active).cju.frozen = [frozenAt 4 .inFlight] ++ frozenAt 5 .waiting :: [] ∧
      (∀ y ∈ [frozenAt 4 .inFlight] ++ [], y.handle ≠ 5 ∧ y.step ≠ .waiting) ∧ (staging .waiting .free active).stc.state = .active ∧
      (staging .waiting .free active).odu.linkUp = true ∧ (staging .waiting .free active).canHand .staging = true ∧
      (staging .waiting .free active).extent 5 = some (liveAt 1) ∧
      (staging .waiting .free active).odu.slots.findIdx? (fun y => decide (y.state = .free)) = some 0) ∧
    ((staging .staging (stagingSlot 3000000000) active).slot 7 = stagingSlot 3000000000 ∧ 120 * 25000000 ≤ 3000000000) ∧
    (∀ i ∈ [7, 8], (onB (.staged i 5) (staging .staging (stagingSlot 0) active)).offersB (entry (.staged i 5) .untaken) (.staged i 5) ∧
      (onB (.stageFailed i 5) (staging .staging (stagingSlot 0) active)).offersB (entry (.stageFailed i 5) .untaken)
        (.stageFailed i 5)) ∧
    (onB (.staged 6 5) (staging .staging (stagingSlot 0) active)).offersB (entry (.staged 6 5) .untaken) (.staged 6 5) ∧
    (active.slot 6).state ≠ .staging ∧
    (onB (.staged 7 6) (staging .staging (stagingSlot 0) active)).offersB (entry (.staged 7 6) .untaken) (.staged 7 6) := by
  simp only [State.offersB]; decide
theorem test_takeForStaging : after (.takeForStaging .clean) (staging .waiting .free active)
    (fun t => (t.odu.slots.head?, t.cju.frozen.map FrozenEntry.step, t.cqp.notices)) =
      some (some ⟨.staging, some ⟨5, 2, 10⟩, some 0, none⟩, [.inFlight, .staging], [.stageRequest 0 5 2 10]) := by decide
theorem test_staged : after (.staged 7 5 .clean) (onB (.staged 7 5) (staging .staging (stagingSlot 0) active))
      (fun t => ((t.slot 7).check, t.odu.readyOrder, t.cju.frozen.map FrozenEntry.step)) =
      some (some 0xA5C35A3C, [7], [.inFlight, .ready]) ∧
    after (.staged 7 6 .clean) (onB (.staged 7 6) (staging .staging (stagingSlot 0) active)) outcomeB = some (some .badField) := by decide
theorem test_stageFailed : after (.stageFailed 7 5 .clean) (onB (.stageFailed 7 5) (staging .staging (stagingSlot 0) active))
      (fun t => ((t.slot 7).state, t.cju.figures.failures, t.cju.frozen.getLast?.map FrozenEntry.nightsFailed)) =
      some (.free, 1, some 1) ∧
    after (.stageFailed 6 5 .clean) (onB (.stageFailed 6 5) (staging .staging (stagingSlot 0) active)) outcomeB = some (some .stale) := by
  decide
theorem test_stagingTimeout : after (.stagingTimeout 7 .clean) (staging .staging (stagingSlot 3000000000) active)
      (fun t => ((t.slot 7).state, t.cju.frozen.map FrozenEntry.handle)) = some (.free, [4, 5]) ∧
    after (.stagingTimeout 7 .clean) (staging .staging (stagingSlot 2999999999) active) (fun t => (t.slot 7).state) = some .staging := by
  decide

/-- The link UP or DOWN; with an open night, a night settling on one frame, or none. -/
def linked (up : Bool) (send silence : Nat) : State :=
  { active with odu := { active.odu with linkUp := up, sendTimer := send, silenceTimer := silence, tokens := 5 } }
def withFrame (w : WindowState) (silence : Nat) : State := { nightBusy (.awaiting none) with
  cju := { (nightBusy .resendDue).cju with window := w, windowLeft := none, frozen := [frozenAt 4 .waiting, { frozenAt 5 .inFlight with attempts := 2 }] }
  odu := { (nightBusy (.awaiting none)).odu with silenceTimer := silence } }
theorem witness_LinkRisesAndFalls : (linked true Config.second 250000000).operates = true ∧
    (linked true Config.second 0).odu.sending = none ∧ Config.second ≤ (linked true Config.second 0).odu.sendTimer ∧
    (linked false 0 0).odu.linkUp = false ∧ (linked false 0 0).cju.window ≠ .opened ∧ (linked true 0 0).odu.linkUp = true ∧
    ((withFrame .settling 250000000).operates = true ∧ (withFrame .settling 250000000).cju.report = none ∧
      (withFrame .settling 250000000).odu.completions = [] ∧ (withFrame .opened 0).cju.window ≠ .settling ∧
      Config.linkSilenceLimit ≤ (withFrame .settling 250000000).odu.silenceTimer) := by decide
theorem test_hello : after .helloSend (linked false Config.second 0) (fun t => (t.odu.lastFrame, t.odu.sendTimer)) =
      some (some (.hello 3 9), 0) ∧
    after .idleSend (linked true Config.second 0) (·.odu.lastFrame) = some (some (.idle 3)) := by decide
theorem test_ready : after (.readyFrame .clean) (linked false 0 7) (fun t => (t.odu.linkUp, t.cqp.causes, t.odu.tokens)) = some (true, 64, 5) ∧
    after .idleFrame (linked true 0 7) (·.odu.silenceTimer) = some 0 := by decide
theorem test_linkFalls : after (.lossOfSignal .clean) (linked true 0 7) (fun t => (t.odu.linkUp, t.odu.tokens, t.cqp.causes)) =
      some (false, 0, 8) ∧
    after (.linkSilenceTimeout .clean) (linked true 0 249999999) (·.odu.linkUp) = some true := by decide
theorem test_linkFalls_frames : after (.lossOfSignal .clean) (withFrame .opened 0)
      (fun t => (t.cju.frozen, t.odu.places, (t.slot 7).state, t.cju.report)) =
      some ([{ frozenAt 5 .waiting with attempts := 2 }, frozenAt 4 .waiting], [], .free, none) ∧
    after (.linkSilenceTimeout .clean) (withFrame .settling 250000000) (fun t => (t.cju.report.map NightReport.nightNumber, t.cqp.waiting)) =
      some (some 6, [.report]) := by decide
theorem test_badFrame : after (.badFrame [0]) (linked true 0 7) (·.odu.silenceTimer) = some 7 := by decide

def readySlot : StagingSlot := ⟨.ready, some ⟨5, 2, 0⟩, none, some 9⟩
def copying (n : Nat) : State := (fun s => { s with odu := { s.odu with readyOrder := [7], attemptNumber := n, tokens := 256000 } })
  (staging .ready readySlot active)
theorem witness_CopyIsSentOnTokens :
    (∀ n ∈ [65534, 65535], (copying n).stc.state = .active ∧ (copying n).odu.linkUp = true ∧ (copying n).cju.window = .opened ∧
      (copying n).odu.sending = none ∧ (copying n).odu.sendTimer < Config.second ∧ (copying n).odu.resends = [] ∧
      (copying n).odu.readyOrder = 7 :: [] ∧ (copying n).odu.places.length < 4 ∧ (copying n).slot 7 = readySlot ∧
      0 * 1000 ≤ (copying n).odu.tokens) ∧
    ({ (copying 1).odu with resends := [7] } : Odu).resends = 7 :: [] ∧ 4 ≤ (List.replicate 4 (⟨5, 7, 1, .resendDue⟩ : Place)).length ∧
    ({ active.odu with sending := some 1 } : Odu).sending = some 1 ∧
    active.stc.state ≠ .halted ∧ 25000 ≤ ({ active.odu with tokenTimer := 25000 } : Odu).tokenTimer := by decide
theorem test_copySend : after (.copySend .clean) (copying 65535)
    (fun t => (t.odu.places, (t.slot 7).state, t.odu.sending, t.cju.frozen.map FrozenEntry.step)) =
      some ([⟨5, 7, 1, .awaiting none⟩], .inFlight, some 1, [.inFlight, .inFlight]) := by decide
theorem test_copySend_again : after (.copySend .clean)
    { copying 8 with odu := { (copying 8).odu with places := [⟨4, 6, 2, .resendDue⟩, ⟨5, 7, 1, .resendDue⟩], resends := [7] } }
    (fun t => (t.odu.places, t.odu.resends, t.odu.readyOrder)) =
      some ([⟨4, 6, 2, .resendDue⟩, ⟨5, 7, 9, .awaiting none⟩], [], [7]) := by decide
theorem test_copySendEnd : after .copySendEnd { active with odu := { active.odu with
    sending := some 1, sendTimer := 25000000, places := [⟨5, 7, 1, .awaiting none⟩] } }
      (fun t => (t.odu.sending, t.odu.places, t.odu.sendTimer, t.secondDue)) =
      some (none, [⟨5, 7, 1, .awaiting (some 0)⟩], 25000000, true) := by decide
/-- The night settles on the one frame outstanding. -/
def settling (s : State) : State := { s with cju := { s.cju with window := .settling } }
theorem test_tokenGain : after .tokenGain { active with odu := { active.odu with tokenTimer := 25000, ownShare := 7001, tokens := 14001999 } }
    (·.odu.tokens) = some 14002000 := by decide

/-- One outstanding frame of handle 5 in slot 7. -/
def outstanding (st : PlaceState) (attempts : Nat) : State :=
  (fun s => { s with
    odu := { s.odu with places := [⟨5, 7, 1, st⟩], silenceTimer := 9 }
    cju := { s.cju with frozen := [{ frozenAt 5 .inFlight with attempts := attempts }] } })
  (staging .inFlight ⟨.inFlight, some ⟨5, 2, 0⟩, none, some 9⟩ active)
theorem witness_RepliesSettleOrResend :
    ((outstanding (.awaiting (some 50000000)) 2).operates = true ∧ (outstanding (.awaiting (some 50000000)) 2).odu.linkUp = true ∧
      (outstanding (.awaiting (some 50000000)) 2).cju.window = .opened ∧
      (outstanding (.awaiting (some 50000000)) 2).odu.places = [] ++ ⟨5, 7, 1, .awaiting (some 50000000)⟩ :: [] ∧
      (∀ n ∈ [1, 2], ((outstanding (.awaiting none) n).cju.frozen.find? fun y => decide (y.handle = 5)) =
        some { frozenAt 5 .inFlight with attempts := n }) ∧
      ((outstanding (.awaiting none) 1).slot 7).check ≠ some 8) ∧
    ((settling (outstanding (.awaiting none) 1)).cju.window ≠ .opened ∧ (settling (outstanding (.awaiting none) 1)).cju.report = none ∧
      (settling (outstanding (.awaiting none) 1)).odu.completions = []) ∧
    (outstanding (.busyWait 25000000) 1).odu.places = [] ++ ⟨5, 7, 1, .busyWait 25000000⟩ :: [] ∧ active.odu.places = [] := by decide
theorem test_ack : after (.ack 5 1 8 .clean) (outstanding (.awaiting none) 1)
      (fun t => (t.odu.places, t.odu.resends, t.cju.frozen.map FrozenEntry.attempts)) =
      some ([⟨5, 7, 1, .resendDue⟩], [7], [2]) ∧
    after (.ack 5 2 9 .clean) (outstanding (.awaiting none) 1) (fun t => (t.odu.places.length, t.odu.silenceTimer)) = some (1, 0) := by
  decide
theorem test_nak : after (.nak 5 1 1 .clean) (outstanding (.awaiting none) 1) (·.odu.places) = some [⟨5, 7, 1, .busyWait 0⟩] ∧
    after (.nak 5 1 2 .clean) (outstanding (.awaiting none) 2)
      (fun t => (t.odu.places, (t.slot 7).state, t.cju.frozen.map FrozenEntry.step)) = some ([], .free, [.waiting]) := by decide
theorem test_nak_settles : after (.nak 5 1 1 .clean) (settling (outstanding (.awaiting none) 1))
    (fun t => (t.odu.places, t.cju.frozen, t.cju.report.isSome, t.cqp.waiting)) = some ([], [frozenAt 5 .waiting], true, [.report]) := by
  decide
/-- A HELD, marked extent whose entry completes; the batch holding a given number of handles. -/
def completingMarked (places : List Place) (completions : List Nat) (batch : Nat) : State := (fun s => { s with
    odu := { s.odu with places := places, completions := completions }
    xtu := { s.xtu with
      extents := [(5, { heldAt 1 2 with copy := some .awaiting, mark := true })]
      heldList := [5]
      batch := List.replicate batch 99 } })
  (withOwners [(7, owning 0 0 10)] (outstanding (.awaiting none) 0))
theorem test_replyTimeout : after (.replyTimeout 7 .clean) (outstanding (.awaiting (some 50000000)) 0) (·.odu.resends) = some [7] ∧
    after (.replyTimeout 7 .clean) (outstanding (.awaiting (some 49999999)) 0) (·.odu.resends) = some [] := by decide
theorem test_busyWaitEnd : after (.busyWaitEnd 7) (outstanding (.busyWait 25000000) 0) (fun t => (t.odu.resends, t.odu.places)) =
    some ([7], [⟨5, 7, 1, .resendDue⟩]) := by decide

def completing : State := (fun s => { s with odu := { s.odu with places := [], completions := [7] } }) (outstanding (.awaiting none) 0)
/-- Another frame is outstanding. -/
def alsoOut (s : State) : State := { s with odu := { s.odu with places := ⟨6, 2, 4, .resendDue⟩ :: s.odu.places } }
theorem witness_CopyCompletesItsEntry :
    (∀ s ∈ [outstanding (.awaiting none) 0, settling (outstanding (.awaiting none) 0), settling (alsoOut (outstanding (.awaiting none) 0))],
      s.cju.frozen = [] ++ frozenAt 5 .inFlight :: [] ∧ s.slot 7 = ⟨.inFlight, some ⟨5, 2, 0⟩, none, some 9⟩ ∧
      s.extent 5 = some (liveAt 1) ∧ s.odu.linkUp = true ∧ s.operates = true) ∧ (liveAt 1).mark = false ∧
    (outstanding (.awaiting none) 0).odu.places = [] ++ ⟨5, 7, 1, .awaiting none⟩ :: [] ∧
    (alsoOut (outstanding (.awaiting none) 0)).odu.places = [⟨6, 2, 4, .resendDue⟩] ++ ⟨5, 7, 1, .awaiting none⟩ :: [] ∧
    (∀ n ∈ [14, 15, 16], (completingMarked [] [7] n).odu.completions = [] ++ 7 :: [] ∧
      (completingMarked [] [7] n).operates = true ∧
      (completingMarked [] [7] n).extent 5 = some { heldAt 1 2 with copy := some .awaiting, mark := true }) ∧
    ((withSnaps [due 2 120 1 true] 2 (completingMarked [] [7] 0)).snapshot 2 = some (due 2 120 1 true) ∧
      (withSnaps [due 2 120 1 true] 2 (completingMarked [] [7] 0)).pins 2 = 0) := by decide
theorem test_ack_among : after (.ack 5 1 9 .clean) (settling (alsoOut (outstanding (.awaiting none) 0)))
    (fun t => (t.cju.frozen, t.odu.places, t.cju.report.isSome)) = some ([], [⟨6, 2, 4, .resendDue⟩], false) := by decide
theorem test_ack_success : after (.ack 5 1 9 .clean) (withSnaps [due 2 120 1 false] 2 (outstanding (.awaiting none) 0))
    (fun t => (t.cju.frozen, (t.extent 5).bind ExtentRec.copy, t.scu.catalogue.map SnapRec.undrained, t.cju.figures.blocksCopied)) =
      some ([], some .copied, [0], 10) := by decide
theorem test_copyCompletion : after (.copyCompletion .clean) completing (fun t => (t.cju.frozen, t.odu.completions, (t.slot 7).state)) =
    some ([], [], .free) := by decide
theorem test_copyCompletion_marked : after (.copyCompletion .clean) (withSnaps [due 2 120 1 true] 2 (completingMarked [] [7] 14))
      (fun t => (t.extent 5, (t.owner 7).held, t.xtu.batch.length, t.cqp.notices.length, t.scu.catalogue)) = some (none, 0, 0, 1, []) ∧
    after (.ack 5 1 9 .clean) (completingMarked [⟨5, 7, 1, .awaiting none⟩] [] 16) (fun t => (t.odu.completions, t.odu.places, t.odu.silenceTimer)) =
      some ([7], [], 0) := by decide
theorem test_copyCompletion_fills : after (.copyCompletion .clean) (settling (completingMarked [] [7] 15))
      (fun t => (t.cqp.notices, t.xtu.batch, t.cju.report.map NightReport.extentsCopied, t.cqp.waiting)) =
      some ([.reclaim (List.replicate 15 99 ++ [5])], [], some 1, [.report]) ∧
    after (.copyCompletion .clean) (noticesFull (completingMarked [] [7] 15)) (fun t => (t.xtu.batch.length, t.xtu.batchWaiting)) =
      some (16, true) := by decide

/-! ### Table faults and the laws -/

/-- Each premise of the parts: rows of the map, a step that changes a table, a command moved on, what each reading step needs, and
an end with one item dealt with and one left. -/
theorem witness_TableFaultHalts :
    (underEcc .clean (.charge 5 7 2 10 .corrected) = some (.charge 5 7 2 10 .clean) ∧
      underEcc .uncorrectable (.charge 5 7 2 10 .corrected) = some (.charge 5 7 2 10 .uncorrectable)) ∧
    ((after (.release 5 .clean) (releasing 1) fun t => decide (t.xtu.extents = (releasing 1).xtu.extents)) = some false ∧
      after (.charge 5 7 2 256 .clean) (withExtents [(5, liveAt 1)] (onU (.charge 5 7 2 256) active)) outcomeU = some (some .duplicate)) ∧
    (reporting.uvu.reports = 7 :: [8] ∧ reporting.operates = true ∧
      (sweeping (heldAt 1 2) 0).xtu.sweep.state = .running ∧ (ticking .active 0).tickDue = true ∧
      ((batchingAgain true).xtu.sweep = ⟨.paused, [], true⟩ ∧ (batchingAgain true).canHand .reclaim = true ∧
        (batchingAgain true).xtu.batchWaiting = true ∧ (batchingAgain false).xtu.batch ≠ [] ∧
        (batchingAgain false).xtu.batchWaiting = false ∧ Config.second ≤ (batchingAgain false).xtu.batchTimer) ∧
      (purging ⟨5, .all, 0⟩).uvu.walk = some ⟨5, .all, 0⟩ ∧ (handing 1 0 []).psi.handed = some ⟨5, 7, 1⟩ ∧
      (walking [7] 0 0).walkerDue = true ∧ (walking [7] 0 0).psi.usage = none ∧ expiring.stc.expiryMoment = true ∧
      (nightAt active).stc.windowMoment = true ∧ (nightAt active).cju.window = .closed ∧
      (nightOver .opened).cju.windowLeft = some 0 ∧ active.odu.linkUp = true ∧ (linked false 0 0).odu.linkUp = false) ∧
    ((sweeping (heldAt 1 2) 0).xtu.batch.length < 16 ∧ 16 ≤ (sweeping (heldAt 1 2) 16).xtu.batch.length ∧
      (ending [] 0 0).xtu.sweep.again = true ∧ (ticking .mute 2).tickDue = true ∧
      (nightBusy (.awaiting none)).cju.window = .opened ∧ (nightOver .skipped).cju.windowLeft = some 0 ∧
      (withFrame .opened 250000000).odu.places ≠ [] ∧ (linked true 0 250000000).odu.places = [] ∧
      (linked true 0 250000000).cju.window ≠ .settling ∧
      Config.linkSilenceLimit ≤ (linked true 0 250000000).odu.silenceTimer) ∧
    ((closing [6, 8] 0 (onB (.restoreCommit 0 77) active)).operates = true ∧
      (after (.restoreCommit 0 77 1 .clean) (closing [6, 8] 0 (onB (.restoreCommit 0 77) active)) fun t => t.rcu.work.isSome) = some true) := by
  decide
theorem test_tableFault : after (.inspectOwner 7 .uncorrectable) (onB (.inspectOwner 7) active)
    (fun t => (t.stc.state, t.stc.haltReason, t.stc.marker, outcomeB t, t.cqp.causes)) = some (.halted, some .table, false, none, 1) := by
  decide
theorem test_tableFault_pending : after (.loadExtent 5 7 15 256 (some .live) 3 none (some .awaiting) .uncorrectable)
      (loadingExtent .live none active) (·.stc.haltReason) = some (some .table) ∧
    after (.restoreCommit 0 77 1 .uncorrectable) (closing [6, 8] 0 (onB (.restoreCommit 0 77) active))
      (fun t => (t.stc.state, (t.context 0).items, (t.extent 6).map ExtentRec.state, (t.extent 8).map ExtentRec.state)) =
      some (.halted, [8], some .live, some .reserved) := by decide

/-- A step that touches on-chip state alone goes on under an uncorrectable error (R153, R155, R189, R193), and the expiry pass of a
SET-CLOCK does not. -/
theorem test_tableFault_onChip :
    after (.setClock 120 28799 .uncorrectable) (onB (.setClock 120 28799) active) (fun t => (outcomeB t, t.stc.clock)) =
      some (some .done, ⟨120, 28799, 0⟩) ∧
    after (.setClock 120 28800 .uncorrectable) (onB (.setClock 120 28800) active) (fun t => (t.stc.haltReason, outcomeB t)) =
      some (some .table, none) ∧
    after (.lossOfSignal .uncorrectable) (linked true 0 0) (fun t => (t.stc.state, t.odu.linkUp, t.cqp.causes)) =
      some (.active, false, Cause.linkDown.bit) ∧
    after (.lossOfSignal .uncorrectable) (withFrame .opened 0) (·.stc.haltReason) = some (some .table) ∧
    after (.readyFrame .uncorrectable) (linked false 0 0) (·.odu.linkUp) = some true := by decide
theorem test_tableFault_onChip_walks :
    after (.start (some .resume) 9 400 86399 .uncorrectable) (starting (some .resume) 86399) (·.stc.work) = some (.cleaning 0 0) ∧
    after (.sweepVisit .uncorrectable) (sweeping (heldAt 1 2) 16) (·.xtu.sweep.state) = some .paused ∧
    after (.beaconTick ⟨false, .uncorrectable⟩) (ticking .listening 1) (·.psi.listeningTicks) = some 2 := by decide

/-- A queue whose front step answers a next state, in a state that obeys each law. -/
theorem witness_LawsAreKept : State.reset.catalogueLaw ∧ State.reset.capacityLaw ∧ State.reset.memoryLaw ∧ State.reset.ringLaw ∧
    State.reset.egressLaw ∧ State.reset.silenceLaw := by
  simp only [State.catalogueLaw, State.capacityLaw, State.memoryLaw, State.ringLaw, RingState.behindFetch, State.egressLaw,
    State.silenceLaw]
  refine ⟨by decide, by decide, by decide, ⟨⟨by decide, ?_⟩, ⟨by decide, ?_⟩, by decide⟩, by decide, by decide⟩ <;>
  · intro i e h; simp [State.reset, Cqp.reset, RingState.reset] at h
theorem witness_LawsAreKept_step : step { State.reset with pending := [.fragment] } =
    .next { State.reset with psi := State.reset.psi.mediumIdle } := rfl

end Sys2Proof.Tests
end

/-! PROOF. The usage view: DIRTY_REPORT acts on the oldest report (R121, R122), and the walker picks and announces (R123 to
R126). -/

namespace Sys2Proof.Machine

/-! ### The dirty-member flag -/

/-- The flag is written in the one record, and nothing else of it. -/
@[simp] theorem owner_withDirty_self (s : State) (o : Nat) (flag : Bool) :
    (s.withDirty o flag).owner o = { s.owner o with dirty := flag } :=
  owner_withOwner_self ..

theorem owner_withDirty_other {s : State} {o p : Nat} {flag : Bool} (h : p ≠ o) : (s.withDirty o flag).owner p = s.owner p :=
  owner_withOwner_other h

/-! ### DIRTY_REPORT -/

theorem exec_dirtyReport (ecc : Ecc) (s : State) : exec (.dirtyReport ecc) s = execDirtyReport ecc s := rfl

/-- What DIRTY_REPORT does with the report of `o`, the reports after it being `rest` (R121). -/
def State.reportTaken (s : State) (o : Nat) (rest : List Nat) : State :=
  let t := { s with uvu := { s.uvu with reports := rest } }
  if (s.owner o).dirty then t
  else if s.uvu.dirtyList.length < Config.dirtyCapacity then
    { t with uvu := { t.uvu with dirtyList := t.uvu.dirtyList ++ [o] } }.withDirty o true
  else { t with uvu := { t.uvu with overflowed := true } }

theorem execDirtyReport_next {ecc : Ecc} {s : State} {o : Nat} {rest : List Nat} (hop : s.operates = true)
    (hecc : ecc ≠ .uncorrectable) (hr : s.uvu.reports = o :: rest) :
    execDirtyReport ecc s = .next (s.reportTaken o rest) := by
  simp only [execDirtyReport, hr, hop, Bool.true_eq_false, if_false, withTables_ok hecc]
  rfl

/-- Settles O19: one case per row of R121. -/
theorem dirtyReportActs : Obligations.DirtyReportActs := by
  unfold Obligations.DirtyReportActs
  intro ecc s o rest hop hecc hr
  refine ⟨s.reportTaken o rest, (exec_dirtyReport ecc s).trans (execDirtyReport_next hop hecc hr), ?_, ?_, ?_⟩
  · intro hlisted
    simp [State.reportTaken, hlisted]
  · intro hunlisted hroom
    have joins : s.reportTaken o rest =
        { s with uvu := { s.uvu with reports := rest, dirtyList := s.uvu.dirtyList ++ [o] } }.withDirty o true := by
      simp [State.reportTaken, hunlisted, Config.dirtyCapacity, hroom]
    rw [joins]
    exact ⟨rfl, owner_withDirty_self .., fun p hp => owner_withDirty_other hp, rfl⟩
  · intro hunlisted hfull
    simp [State.reportTaken, hunlisted, Config.dirtyCapacity, Nat.not_lt.mpr hfull]

/-! ### An announcement -/

/-- The end of an access leaves C as the access's own work left it. -/
theorem chargeable_closing (s : State) (r : OwnerRec) : s.chargeable (s.closing r) = s.chargeable r := by
  obtain ⟨g, hg⟩ := closing_eq s r
  rw [hg]; rfl

/-- An access that leaves C as it finds it reports nothing (R8). -/
theorem access_uvu_of_chargeable_eq {s : State} {o : Nat} {f : OwnerRec → OwnerRec}
    (h : s.chargeable (f (s.opened o)) = s.chargeable (s.opened o)) : (s.access o f).uvu = s.uvu := by
  simp [State.access, State.report, chargeable_closing, h]

/-- From one state to the next the owner `o` was announced in one access: its C is in the USAGE slot and is its last-announced
value, and its dirty-member flag is `dirty`; beside this only the usage view may differ (R126). -/
def announcedTo (s t : State) (o : Nat) (dirty : Bool) : Prop :=
  t.owner o = s.closing { s.opened o with lastAnnounced := s.chargeable (s.opened o), dirty := dirty } ∧
  (∀ p, p ≠ o → t.owner p = s.owner p) ∧
  t.psi = { s.psi with
    usage := some ⟨.usage o (s.chargeable (s.opened o)), 0⟩, tx := if s.psi.tx = .idle then .deferring else s.psi.tx } ∧
  t = { s with qsu := { s.qsu with owners := t.qsu.owners }, uvu := t.uvu, psi := t.psi }

/-- The work of the access that announces: C becomes the last-announced value, and a dirty pick clears the flag (R126). -/
def State.announcing (s : State) (popped : Bool) (r : OwnerRec) : OwnerRec :=
  { r with lastAnnounced := s.chargeable r, dirty := if popped then false else r.dirty }

/-- An announcement writes nothing of the usage view: it leaves C as it is, so it makes no report. -/
@[simp] theorem announce_uvu (s : State) (o : Nat) (popped : Bool) : (s.announce o popped).uvu = s.uvu :=
  access_uvu_of_chargeable_eq (s := s) (o := o) (f := s.announcing popped) rfl

/-- Everything an announcement does. -/
theorem announcedTo_announce (s : State) (o : Nat) (popped : Bool) :
    announcedTo s (s.announce o popped) o (if popped then false else (s.opened o).dirty) :=
  ⟨owner_access_self s o (s.announcing popped), fun _ hp => owner_access_other (f := s.announcing popped) hp, rfl, rfl⟩

/-- The walker's own bookkeeping, done before the announcement, bears on no part of it. -/
theorem announcedTo_of_uvu {s t : State} {v : Uvu} {o : Nat} {dirty : Bool} (h : announcedTo { s with uvu := v } t o dirty) :
    announcedTo s t o dirty := h

theorem opened_dirty (s : State) (o : Nat) : (s.opened o).dirty = (s.owner o).dirty := by
  obtain ⟨-, -, -, -, -, -, h, -⟩ := opening_fields s (s.owner o)
  exact h

/-! ### The sweep over the owners -/

/-- The cycle counter once the sweep has examined `k` owners from pointer `p` on. -/
def cycleAfter (p c k : Nat) : Nat := if Config.ownerCount ≤ p + k then (c + 1) % 65536 else c

/-- One owner more: the counter rises exactly as the pointer passes from 65,535 to 0, at most once within 65,536 owners. -/
theorem cycleAfter_succ {p k : Nat} (c : Nat) (hp : p < Config.ownerCount) (hk : k < Config.ownerCount) :
    (if (p + (k + 1)) % Config.ownerCount = 0 then (cycleAfter p c k + 1) % 65536 else cycleAfter p c k) =
      cycleAfter p c (k + 1) := by
  have wraps : (p + (k + 1)) % Config.ownerCount = 0 ↔ p + (k + 1) = Config.ownerCount := by
    simp only [Config.ownerCount] at hp hk ⊢; omega
  unfold cycleAfter
  by_cases hw : p + (k + 1) = Config.ownerCount
  · rw [if_pos (wraps.mpr hw), if_neg (by omega), if_pos (by omega)]
  · rw [if_neg (mt wraps.mp hw)]
    have passed : Config.ownerCount ≤ p + k ↔ Config.ownerCount ≤ p + (k + 1) := by omega
    simp only [passed]

/-- Inactive owners are passed over: the pointer moves on by their number (R125). -/
theorem sweepFrom_inactive {active : Nat → Bool} {p : Nat} (c : Nat) (hp : p < Config.ownerCount) (n : Nat) {k : Nat}
    (hk : k ≤ Config.ownerCount) (hidle : ∀ j, j < k → active ((p + j) % Config.ownerCount) = false) :
    sweepFrom active (k + n) p c = sweepFrom active n ((p + k) % Config.ownerCount) (cycleAfter p c k) := by
  induction k generalizing n with
  | zero => simp [cycleAfter, Nat.mod_eq_of_lt hp, Nat.not_le.mpr hp]
  | succ k ih =>
    have before := ih (n + 1) (by omega) fun j hj => hidle j (by omega)
    rw [Nat.add_right_comm, Nat.add_assoc, before]
    simp only [sweepFrom, hidle k (by omega), Bool.false_eq_true, if_false, Nat.mod_add_mod, Nat.add_assoc,
      cycleAfter_succ c hp hk]

/-- The first active owner ends the sweep, with the pointer behind it. -/
theorem sweepFrom_found {active : Nat → Bool} {p k : Nat} (c : Nat) (hp : p < Config.ownerCount) (hk : k < Config.ownerCount)
    (hidle : ∀ j, j < k → active ((p + j) % Config.ownerCount) = false) (hfound : active ((p + k) % Config.ownerCount) = true) :
    sweepFrom active Config.ownerCount p c =
      (some ((p + k) % Config.ownerCount), ((p + k) % Config.ownerCount + 1) % Config.ownerCount, cycleAfter p c (k + 1)) := by
  obtain ⟨n, hn⟩ : ∃ n, Config.ownerCount = k + (n + 1) := ⟨Config.ownerCount - k - 1, by omega⟩
  calc sweepFrom active Config.ownerCount p c
      = sweepFrom active (k + (n + 1)) p c := congrArg (sweepFrom active · p c) hn
    _ = sweepFrom active (n + 1) ((p + k) % Config.ownerCount) (cycleAfter p c k) :=
        sweepFrom_inactive c hp (n + 1) (by omega) hidle
    _ = _ := by simp only [sweepFrom, hfound, if_true, Nat.mod_add_mod, Nat.add_assoc, cycleAfter_succ c hp hk]

/-- With every owner inactive the pointer comes back to where it stood, and the cycle counter has risen once. -/
theorem sweepFrom_none {active : Nat → Bool} {p : Nat} (c : Nat) (hp : p < Config.ownerCount)
    (hidle : ∀ j, j < Config.ownerCount → active ((p + j) % Config.ownerCount) = false) :
    sweepFrom active Config.ownerCount p c = (none, p, (c + 1) % 65536) := by
  have passed := sweepFrom_inactive c hp 0 (Nat.le_refl _) hidle
  rw [Nat.add_zero] at passed
  rw [passed, sweepFrom, cycleAfter, Nat.add_mod_right, Nat.mod_eq_of_lt hp, if_pos (Nat.le_add_left ..)]

/-! ### One pick -/

theorem ownerActive_iff (s : State) (o : Nat) :
    s.ownerActive o = true ↔ 0 < s.chargeable (s.owner o) ∨ 0 < (s.owner o).lastAnnounced := by
  simp [State.ownerActive]

theorem sweepPick_found {s : State} {o p c : Nat}
    (h : sweepFrom s.ownerActive Config.ownerCount s.uvu.sweepPointer s.uvu.walkCycle = (some o, p, c)) :
    s.sweepPick =
      { s with uvu := { s.uvu with sweepPointer := p, walkCycle := c, consecutiveDirty := 0 } }.announce o false := by
  unfold State.sweepPick; rw [h]

theorem sweepPick_none {s : State} {p c : Nat}
    (h : sweepFrom s.ownerActive Config.ownerCount s.uvu.sweepPointer s.uvu.walkCycle = (none, p, c)) :
    s.sweepPick = { s with uvu := { s.uvu with sweepPointer := p, walkCycle := c, consecutiveDirty := 0 } } := by
  unfold State.sweepPick; rw [h]

theorem walkerPick_dirty {s : State} {o : Nat} {rest : List Nat} (hl : s.uvu.dirtyList = o :: rest)
    (hc : s.uvu.consecutiveDirty < 3) :
    s.walkerPick = { s with uvu := { s.uvu with
      dirtyList := rest
      overflowed := s.uvu.overflowed && !rest.isEmpty
      consecutiveDirty := s.uvu.consecutiveDirty + 1 } }.announce o true := by
  simp only [State.walkerPick, hl, hc, if_true]

theorem walkerPick_sweep {s : State} (h : s.uvu.dirtyList = [] ∨ 3 ≤ s.uvu.consecutiveDirty) : s.walkerPick = s.sweepPick := by
  cases hl : s.uvu.dirtyList with
  | nil => simp only [State.walkerPick, hl]
  | cons o rest =>
    have hc : ¬ s.uvu.consecutiveDirty < 3 := Nat.not_lt.mpr (h.resolve_left (by simp [hl]))
    simp only [State.walkerPick, hl, hc, if_false]

/-! ### WALKER_EXPIRY -/

theorem exec_walkerExpiry (ecc : Ecc) (s : State) : exec (.walkerExpiry ecc) s = execWalkerExpiry ecc s := rfl

/-- The walker's counter reloads (R123). -/
def State.walkerReloaded (s : State) : State := { s with uvu := { s.uvu with walkerTimer := some 0 } }

theorem walkerDue_of_passed {s : State} {timer : Nat} (ha : s.stc.state = .active) (ht : s.uvu.walkerTimer = some timer)
    (hp : s.config.walkerInterval * 25000 ≤ timer) : s.walkerDue = true := by
  simp [State.walkerDue, ha, ht, Config.millisecond, hp]

theorem exec_walkerExpiry_occupied {ecc : Ecc} {s : State} (hd : s.walkerDue = true) (hu : s.psi.usage.isSome = true) :
    exec (.walkerExpiry ecc) s = .next s.walkerReloaded := by
  simp only [exec_walkerExpiry, execWalkerExpiry, hd, hu, if_true, State.walkerReloaded]

theorem exec_walkerExpiry_pick {ecc : Ecc} {s : State} (hecc : ecc ≠ .uncorrectable) (hd : s.walkerDue = true)
    (hu : s.psi.usage = none) : exec (.walkerExpiry ecc) s = .next s.walkerReloaded.walkerPick := by
  simp only [exec_walkerExpiry, execWalkerExpiry, hd, hu, if_true, Option.isSome_none, Bool.false_eq_true, if_false,
    withTables_ok hecc, State.walkerReloaded]

/-- Settles O46: the slot occupied, a dirty pick, a sweep pick that finds an owner, and one that finds none. -/
theorem walkerPicksAndAnnounces : Obligations.WalkerPicksAndAnnounces := by
  unfold Obligations.WalkerPicksAndAnnounces
  intro ecc s timer hactive htimer hpassed hecc
  have due := walkerDue_of_passed hactive htimer hpassed
  refine ⟨fun hu => exec_walkerExpiry_occupied due hu, fun o rest hu hl hc => ?_, fun hu hsweep hp => ?_⟩
  · refine ⟨_, (exec_walkerExpiry_pick hecc due hu).trans (congrArg _ (walkerPick_dirty hl hc)),
      announcedTo_of_uvu (announcedTo_announce _ o true), (announce_uvu ..).trans ?_⟩
    cases rest <;> simp [State.walkerReloaded]
  · have pick : exec (.walkerExpiry ecc) s = .next s.walkerReloaded.sweepPick :=
      (exec_walkerExpiry_pick hecc due hu).trans (congrArg _ (walkerPick_sweep hsweep))
    have inactive (o : Nat) (h : ¬ (0 < s.chargeable (s.owner o) ∨ 0 < (s.owner o).lastAnnounced)) : s.ownerActive o = false :=
      Bool.eq_false_iff.mpr (mt (ownerActive_iff s o).mp h)
    refine ⟨fun k hk hidle hfound => ?_, fun hidle => ?_⟩
    · have sweep := sweepFrom_found s.uvu.walkCycle hp hk (fun j hj => inactive _ (hidle j hj))
        ((ownerActive_iff ..).mpr hfound)
      refine ⟨_, pick.trans (congrArg _ (sweepPick_found (s := s.walkerReloaded) sweep)), ?_, announce_uvu ..⟩
      rw [← opened_dirty]
      exact announcedTo_of_uvu (announcedTo_announce _ _ false)
    · have sweep := sweepFrom_none s.uvu.walkCycle hp fun j hj => inactive _ (hidle j hj)
      exact pick.trans (congrArg _ (sweepPick_none (s := s.walkerReloaded) sweep))

end Sys2Proof.Machine
